-- ==== Sys2Proof/Word.lean ====
section
/-! DEFINITION. The word types of the block (00_scope.md R9): every quantity is unsigned. -/

namespace Sys2Proof

/-- An unsigned 8-bit value, bit 0 least significant (R9). -/
abbrev Byte := BitVec 8

/-- The 16-bit message value, `UInt16` of R9. -/
abbrev Value := BitVec 16

/-- A 9-bit selecting symbol: the decode key of R71 or the encoder symbol of R77. -/
abbrev Sym9 := BitVec 9

end Sys2Proof
end

