-- ==== Sys2Proof/Config.lean ====
section
/-! DEFINITION. Constants and parameters of the block (00_scope.md R7, R8), and the one value the spec leaves open. -/

namespace Sys2Proof

/-- The values of `P_ESC_MODE` (00_scope.md R8, 42_encoder.md R170). -/
inductive EscMode where
  | twoSided
  | termOnly
deriving DecidableEq, Repr

/-- The parameters of R8 that a run fixes. `addrKeys` is the key set of the AddressTable, the set of
bytes on which `P_ADDR_VALID` is true. They stand in State so that a statement about every state is one
about every parameter, and no operation writes them (10_state.md R31; log 5). -/
structure Params where
  escMode  : EscMode
  addrKeys : List Byte
deriving DecidableEq, Repr

namespace Config

/-- `TERM`, the terminator (R7). -/
def TERM : Byte := 0xFF#8

/-- `ESC`, the escape byte (R7). -/
def ESC : Byte := 0xFE#8

/-- `MIN_MSG_LEN` (R8). -/
def minMsgLen : Nat := 3

/-- `P_CNT_W`, the width of each counter (R8; log 7). -/
abbrev cntW : Nat := 32

/-- The AddressTable's key set, which the spec leaves OPEN (R8, D4). DESIGN CHOICE (log 5): a free
value, a constant without a body, so that nothing can be proved of which addresses it holds. -/
opaque addrKeys : List Byte

/-- The parameters a run from reset has: the default escaping mode of R8 (log 6) and the free table. -/
def params : Params := { escMode := .twoSided, addrKeys := addrKeys }

end Config

/-- A counter of 10_state.md R28. -/
abbrev Counter := BitVec Config.cntW

end Sys2Proof
end

