-- ==== Sys2Proof/Machine/Operands.lean ====
section
/-! DEFINITION. Operand forms: the byte classes of the wire format, the address lookup, the value assembly, the
saturating count, and the packing of `err_info`. -/

namespace Sys2Proof.Machine

/-- `RESV(d)`, the payload bytes the encoder escapes (42_encoder.md R170). -/
def resv (m : EscMode) (d : Byte) : Bool :=
  d == Config.TERM || (d == Config.ESC && m == .twoSided)

/-- A byte that is neither `ESC` nor `TERM`: the `plain` of 30_encoding.md R73, the operand range
`0x00` to `0xFD` of DEC_DATA (40_decoder.md R101). -/
def isPlain (b : Byte) : Bool :=
  b != Config.ESC && b != Config.TERM

/-- `P_ADDR_VALID(a)`: `a` is a key of the AddressTable (00_scope.md R8). -/
def addrValid (p : Params) (a : Byte) : Bool :=
  p.addrKeys.contains a

/-- The message value `{hi, lo}`, big-endian (20_memory.md R52, 30_encoding.md R76). -/
def valueOf (hi lo : Byte) : Value := hi ++ lo

/-- `min(n + 1, 3)` on the 2-bit count (40_decoder.md R102). -/
def satInc (n : BitVec 2) : BitVec 2 :=
  BitVec.ofNat 2 (min (n.toNat + 1) 3)

/-- `err_info` of a MalformedFrame: `{subcause, 0b0000, n}` (30_encoding.md R82). -/
def malformedInfo (subcause n : BitVec 2) : Byte :=
  subcause ++ 0b0000#4 ++ n

/-- The subcauses of R82. -/
def subShort : BitVec 2 := 0b00#2
def subTruncated : BitVec 2 := 0b01#2
def subDanglingEsc : BitVec 2 := 0b10#2

end Sys2Proof.Machine
end

