-- ==== Sys2Proof/Syntax.lean ====
section
/-! DEFINITION. The operations of spec/opcode_table.json, the symbols that select them, and the lines of an
ENV script (30_encoding.md R70 to R90, 10_state.md R41). -/

namespace Sys2Proof

/-- The operations of the block, one constructor per row of opcode_table.json (R90). -/
inductive Instr where
  /-- DEC_DATA (R101): an ordinary received byte `b`, key `0_b`. -/
  | decData (b : Byte)
  /-- DEC_ESC (R103): an unescaped escape byte, key `0_11111110`. -/
  | decEsc
  /-- DEC_TERM (R105): an unescaped terminator, key `0_11111111`. -/
  | decTerm
  /-- DEC_LIT (R104): the byte `b` after an escape, key `1_b`. -/
  | decLit (b : Byte)
  /-- DEC_CLOSE (R106): action `Close`. -/
  | decClose
  /-- MSG_TAKE (R146): action `Take`. -/
  | msgTake
  /-- ENC_PLAIN (R171): the payload byte `d` sent as itself, symbol `0_d`. -/
  | encPlain (d : Byte)
  /-- ENC_RESV (R172): the reserved payload byte `d`, first half, symbol `0_d`. -/
  | encResv (d : Byte)
  /-- ENC_LIT (R173): the deferred literal, action `Lit`. -/
  | encLit
  /-- ENC_END (R174): the end of the payload, symbol `1_x`, whose data bits `x` are ignored (U9; log 15). -/
  | encEnd (x : Byte)
  /-- RESET (R240): action `Reset`. -/
  | reset
deriving DecidableEq, Repr

/-- What selects an operation, in the three formats of R90: `DKEY9` (the decode key of R71), `TIN9` (the
encoder symbol of R77), and the four ENV actions that carry no bits (`ACTION`). -/
inductive Symbol where
  | dkey (key : Sym9)
  | tin (sym : Sym9)
  | close
  | take
  | lit
  | reset
deriving DecidableEq, Repr

/-- The ENV action alphabet of 10_state.md R41. -/
inductive Action where
  /-- `Rx(b)`: a byte on `rx`. -/
  | rx (b : Byte)
  /-- `Close`: `rx_close`. -/
  | close
  /-- `Take`: `msg_ready`. -/
  | take
  /-- `Tin(sym)`: a symbol on `tin`. -/
  | tin (sym : Sym9)
  /-- `Lit`: the deferred literal. -/
  | lit
  /-- `Reset`: both agents. -/
  | reset
deriving DecidableEq, Repr

/-- One line of an ENV script (R88): an action, or ENV driving the level of the input port `tx_ready`
(10_state.md R34). DESIGN CHOICE (log 9): the second kind is the model's own; it performs no operation. -/
inductive Line where
  | act (a : Action)
  | txReady (v : Bool)
deriving DecidableEq, Repr

end Sys2Proof
end

