-- ==== Sys2Proof/WellFormed.lean ====
section
/-! DEFINITION. Which operand values an operation has: the operand ranges of 40_decoder.md R101 and
42_encoder.md R171, R172. Every other operand may be any byte. -/

namespace Sys2Proof

/-- An instruction is well formed in an escaping mode when some symbol selects it there. -/
def Instr.wellFormed (m : EscMode) (i : Instr) : Bool :=
  match i with
  | .decData b => Machine.isPlain b
  | .decEsc => true
  | .decTerm => true
  | .decLit _ => true
  | .decClose => true
  | .msgTake => true
  | .encPlain d => !Machine.resv m d
  | .encResv d => Machine.resv m d
  | .encLit => true
  | .encEnd _ => true
  | .reset => true

end Sys2Proof
end

