-- ==== Sys2Proof/Decode.lean ====
section
/-! DEFINITION. The decode map (30_encoding.md R72), the encoder map (R78), the action map (R90), their inverse,
the rows of the opcode table, and the numbering of table words. -/

namespace Sys2Proof

/-- Bits 7..0 of a 9-bit symbol: `rx_data` of a decode key (R71), the data of an encoder symbol (R77). -/
def symData (y : Sym9) : Byte := y.extractLsb' 0 8

/-- Bit 8 of a 9-bit symbol: `dec_mode` of a decode key (R71), the end bit of an encoder symbol (R77). -/
def symTop (y : Sym9) : Bool := y.getLsbD 8

/-- The 9-bit symbol `{top, data}`. -/
def mkSym (top : BitVec 1) (data : Byte) : Sym9 := top ++ data

/-- The decode map of R72, total on the 512 keys. -/
def decodeKey (k : Sym9) : Instr :=
  if symTop k then .decLit (symData k)
  else if symData k = Config.ESC then .decEsc
  else if symData k = Config.TERM then .decTerm
  else .decData (symData k)

/-- The encoder map of R78, total on the 512 symbols. -/
def decodeTin (m : EscMode) (y : Sym9) : Instr :=
  if symTop y then .encEnd (symData y)
  else if Machine.resv m (symData y) then .encResv (symData y)
  else .encPlain (symData y)

/-- The operation a symbol selects. No symbol is illegal (R85). -/
def decode (m : EscMode) : Symbol → Instr
  | .dkey k => decodeKey k
  | .tin y => decodeTin m y
  | .close => .decClose
  | .take => .msgTake
  | .lit => .encLit
  | .reset => .reset

/-- The symbol that selects an operation, written from the tables of R72 and R78. -/
def encode : Instr → Symbol
  | .decData b => .dkey (mkSym 0#1 b)
  | .decEsc => .dkey (mkSym 0#1 0xFE#8)
  | .decTerm => .dkey (mkSym 0#1 0xFF#8)
  | .decLit b => .dkey (mkSym 1#1 b)
  | .decClose => .close
  | .msgTake => .take
  | .encPlain d => .tin (mkSym 0#1 d)
  | .encResv d => .tin (mkSym 0#1 d)
  | .encLit => .lit
  | .encEnd x => .tin (mkSym 1#1 x)
  | .reset => .reset

/-- The selecting pattern of one row of spec/opcode_table.json: its format and, where the format has bits,
`match` and `mask` over the 9-bit symbol. -/
inductive Row where
  | dkey9 (pattern mask : Sym9)
  | tin9 (pattern mask : Sym9)
  | action (a : Symbol)
deriving DecidableEq, Repr

/-- The rows of spec/opcode_table.json. ENC_RESV under `TWO_SIDED` has a second pattern (its `also_match`):
the row chosen is the one for the operand. -/
def tableRow : Instr → Row
  | .decData _ => .dkey9 0x000#9 0x100#9
  | .decEsc => .dkey9 0x0FE#9 0x1FF#9
  | .decTerm => .dkey9 0x0FF#9 0x1FF#9
  | .decLit _ => .dkey9 0x100#9 0x100#9
  | .decClose => .action .close
  | .msgTake => .action .take
  | .encPlain _ => .tin9 0x000#9 0x100#9
  | .encResv d => if d = 0xFE#8 then .tin9 0x0FE#9 0x1FF#9 else .tin9 0x0FF#9 0x1FF#9
  | .encLit => .action .lit
  | .encEnd _ => .tin9 0x100#9 0x100#9
  | .reset => .action .reset

/-- A symbol falls under a row's pattern. -/
def Row.selects : Row → Symbol → Bool
  | .dkey9 p k, .dkey y => y &&& k == p
  | .tin9 p k, .tin y => y &&& k == p
  | .action a, y => a == y
  | .dkey9 _ _, _ => false
  | .tin9 _ _, _ => false

/-- Why a word stands for no symbol. -/
inductive WordReject where
  /-- The format tag of bits 15..9 is none of DKEY9, TIN9, ACTION. -/
  | noSuchFormat (tag : BitVec 7)
  /-- The number of an ACTION word is none of Close, Take, Lit, Reset. -/
  | noSuchAction (number : Sym9)
deriving DecidableEq, Repr

/-- A symbol as ONE 16-bit word: the 9-bit symbol in bits 8..0 as the table numbers it, and in bits 15..9 its
format. DESIGN CHOICE (log 10): the spec keeps the three formats apart by the port a symbol arrives on and
gives them no common numbering; the tag of DKEY9 is 0, so a decode key is its own word. -/
def Symbol.word : Symbol → BitVec 16
  | .dkey k => 0#7 ++ k
  | .tin y => 1#7 ++ y
  | .close => 2#7 ++ 0#9
  | .take => 2#7 ++ 1#9
  | .lit => 2#7 ++ 2#9
  | .reset => 2#7 ++ 3#9

/-- The symbol of an ACTION word. -/
def actionOfNumber (n : Sym9) : Except WordReject Symbol :=
  if n = 0#9 then .ok .close
  else if n = 1#9 then .ok .take
  else if n = 2#9 then .ok .lit
  else if n = 3#9 then .ok .reset
  else .error (.noSuchAction n)

/-- The symbol a word stands for, or why it stands for none. -/
def symbolOfWord (w : BitVec 16) : Except WordReject Symbol :=
  let tag : BitVec 7 := w.extractLsb' 9 7
  let low : Sym9 := w.extractLsb' 0 9
  if tag = 0#7 then .ok (.dkey low)
  else if tag = 1#7 then .ok (.tin low)
  else if tag = 2#7 then actionOfNumber low
  else .error (.noSuchFormat tag)

/-- The word of the table's numbering whose bits are `w`, all bits from `nbits` on being 0. -/
def tableWord (nbits w : Nat) : BitVec 16 := BitVec.ofNat 16 (w % 2 ^ nbits)

/-- The instruction the decoder reads from a table word, in the default escaping mode of R8 (log 6, log 10). -/
def decodeTableWord (nbits w : Nat) : Option Instr :=
  match symbolOfWord (tableWord nbits w) with
  | .ok y => some (decode Config.params.escMode y)
  | .error _ => none

end Sys2Proof
end

