-- ==== Sys2Proof/Machine/State.lean ====
section
/-! DEFINITION. The state of the block (10_state.md R20 to R41), its reset values (R38), and the reasons a step
can stop. -/

namespace Sys2Proof.Machine

/-- `dec_mode` (R23). -/
inductive DecMode where
  | norm
  | escd
deriving DecidableEq, Repr

/-- The error conditions of 60_exceptions.md R201 to R204. `transportStalled` is reserved: nothing raises it. -/
inductive ErrCond where
  | malformedFrame
  | unknownAddress
  | transportClosed
  | transportStalled
deriving DecidableEq, Repr

/-- One event of agent DEC, as its ports carry it (30_encoding.md R80 to R84). -/
inductive DecEvent where
  /-- `fo_kind`, `fo_data` (R83). -/
  | fo (kind : BitVec 2) (data : Byte)
  /-- `MSG(addr, value)` (R80). -/
  | msg (addr : Byte) (value : Value)
  /-- `ERR(code, info)` (R81, R82). -/
  | err (code : BitVec 3) (info : Byte)
  /-- `FLUSH` (R84). -/
  | flush
deriving DecidableEq, Repr

/-- The state of agent DEC (R23 to R28). -/
structure Dec where
  decMode      : DecMode
  decCnt       : BitVec 2
  decB         : Vector Byte 3
  msgPend      : Bool
  msgAddr      : Byte
  msgVal       : Value
  cntFrames    : Counter
  cntOk        : Counter
  cntMalformed : Counter
  cntUnknown   : Counter
deriving DecidableEq, Repr

/-- The state of agent ENC (R29, R30). -/
structure Enc where
  encBusy  : Bool
  encPendV : Bool
  encPendB : Byte
deriving DecidableEq, Repr

/-- The block's two agents (R20), the parameters of the run (R31; log 5), what ENV is still to do (log 1), the
level of the input port `tx_ready` (log 9), and the events each agent has emitted, oldest first (log 8, log 19). -/
structure State where
  dec     : Dec
  enc     : Enc
  params  : Params
  script  : List Line
  txReady : Bool
  decOut  : List DecEvent
  txOut   : List Byte
deriving DecidableEq, Repr

/-- No rule of the spec stops the machine: every error is an event and every step goes on (60_exceptions.md
R200, 40_decoder.md R107), so there is no fault (log 18). -/
inductive Fault where
deriving DecidableEq, Repr

/-- Why a step has no meaning. -/
inductive Refusal where
  /-- An operation of the table without a meaning yet. Raised by an arm of `exec` only; no arm of this model
  raises it (log 18). Safe: the machine stops where the hardware goes on. -/
  | notModelled (mnemonic : String)
deriving DecidableEq, Repr

/-- The reset values of DEC (R38). -/
def Dec.reset : Dec where
  decMode := .norm
  decCnt := 0#2
  decB := #v[0x00#8, 0x00#8, 0x00#8]
  msgPend := false
  msgAddr := 0x00#8
  msgVal := 0x0000#16
  cntFrames := 0
  cntOk := 0
  cntMalformed := 0
  cntUnknown := 0

/-- The reset values of ENC (R38). -/
def Enc.reset : Enc where
  encBusy := false
  encPendV := false
  encPendB := 0x00#8

/-- The machine right after power-on, which is the same as a `Reset` (70_reset R240): the block at R38, the
parameters of the run, ENV with nothing to do and `tx_ready` asserted (log 9), nothing emitted yet. -/
def State.reset : State where
  dec := Dec.reset
  enc := Enc.reset
  params := Config.params
  script := []
  txReady := true
  decOut := []
  txOut := []

end Sys2Proof.Machine
end

