-- ==== Sys2Proof/Machine/Flags.lean ====
section
/-! DEFINITION. What the status bits say: the handshake outputs, the enabling conditions of the operations, and
the derived views of 10_state.md R37. The block has no arithmetic flags. -/

namespace Sys2Proof.Machine

/-- `rx_ready` (R35). -/
def State.rxReady (s : State) : Bool := !s.dec.msgPend

/-- `tin_ready` (R36). -/
def State.tinReady (s : State) : Bool := !s.enc.encPendV

/-- `msg_valid` (R26, R32). -/
def State.msgValid (s : State) : Bool := s.dec.msgPend

/-- The 24-bit message output word `{msg_addr, msg_val}` (30_encoding.md R80). -/
def State.msgWord (s : State) : BitVec 24 := s.dec.msgAddr ++ s.dec.msgVal

/-- A decoder byte step exists, in the decoder mode `m` (40_decoder.md R100, R101, R103 to R105). That a byte is
on `rx` (`rx_valid`) is the presence of the `rx` line that brings the operation (log 1). -/
def State.byteEnabled (m : DecMode) (s : State) : Bool :=
  s.rxReady && s.dec.decMode == m

/-- `MSG_TAKE` exists (41_interpreter.md R146): `msg_ready` is the `take` line. -/
def State.takeEnabled (s : State) : Bool := s.msgValid

/-- An encoder input step exists (R36): `tin_valid` is the `tin` line. -/
def State.tinEnabled (s : State) : Bool := s.tinReady && s.txReady

/-- The deferred-literal step exists (R36, 42_encoder.md R173). -/
def State.litEnabled (s : State) : Bool := s.enc.encPendV && s.txReady

/-- "Frame in flight" (R37). -/
def State.frameInFlight (s : State) : Bool :=
  s.dec.decCnt != 0#2 || s.dec.decMode == .escd

/-- The states of the source's bridge loop that are states of the block (R37). -/
inductive Bridge where
  | idle
  | readingFrame
  | publishing
deriving DecidableEq, Repr

/-- The bridge state of a block state (R37). -/
def State.bridge (s : State) : Bridge :=
  if s.dec.msgPend then .publishing
  else if s.frameInFlight then .readingFrame
  else .idle

end Sys2Proof.Machine
end

