-- ==== Sys2Proof/Machine/Ops.lean ====
section
/-! DEFINITION. The shared operations: emitting events, writing an agent's state, appending a decoded byte
(40_decoder.md R102), taking an error (60_exceptions.md R205), and a step that its condition enables. -/

namespace Sys2Proof.Machine

/-- The answer of a meaning. -/
abbrev Result := Host.Outcome State Fault Refusal

/-- The frame-port events of 30_encoding.md R83. -/
def fbyte (b : Byte) : DecEvent := .fo 0b00#2 b
def fend : DecEvent := .fo 0b01#2 0x00#8
def fabort : DecEvent := .fo 0b10#2 0x00#8

/-- `err_code` (30_encoding.md R81). -/
def ErrCond.code : ErrCond → BitVec 3
  | .malformedFrame => 0b001#3
  | .unknownAddress => 0b010#3
  | .transportClosed => 0b011#3
  | .transportStalled => 0b100#3

/-- `emit` of a DEC event (00_scope.md R11). -/
def State.emit (e : DecEvent) (s : State) : State := { s with decOut := s.decOut ++ [e] }

/-- `emit TX(b)` (42_encoder.md; 30_encoding.md R79): one byte transferred, `tx_valid` with `tx_ready`. DESIGN CHOICE: the
level of `tx_valid` while `tx_ready` is 0, which 10_state.md R34 leaves open, is not modelled (log 19). -/
def State.sendTx (b : Byte) (s : State) : State := { s with txOut := s.txOut ++ [b] }

/-- DEC's elements written. -/
def State.withDec (d : Dec) (s : State) : State := { s with dec := d }

/-- ENC's elements written. -/
def State.withEnc (e : Enc) (s : State) : State := { s with enc := e }

/-- What is left of the ENV script. -/
def State.withScript (l : List Line) (s : State) : State := { s with script := l }

/-- A step that exists when `c` holds and then leads to `t`. When `c` is false the step has no transition and the
agent holds (00_scope.md R11): the state is answered as it was (log 4). -/
def stepIf (c : Bool) (t s : State) : Result := .next (if c then t else s)

/-- The capture of `Append` (R102): the byte is stored at index `dec_cnt` while that is below 3. -/
def Dec.store (b : Byte) (d : Dec) : Dec :=
  if h : d.decCnt.toNat < 3 then { d with decB := d.decB.set d.decCnt.toNat b h } else d

/-- DEC's part of `Append(b)` (R102). -/
def Dec.append (b : Byte) (d : Dec) : Dec := { d.store b with decCnt := satInc d.decCnt }

/-- `Append(b)` (R102). -/
def State.append (b : Byte) (s : State) : State := (s.withDec (s.dec.append b)).emit (fbyte b)

/-- The counter of a condition goes up by one, wrapping (R205, 10_state.md R28). -/
def Dec.count (c : ErrCond) (d : Dec) : Dec :=
  match c with
  | .malformedFrame => { d with cntMalformed := d.cntMalformed + 1 }
  | .unknownAddress => { d with cntUnknown := d.cntUnknown + 1 }
  | .transportClosed => d
  | .transportStalled => d

/-- `raise X(info)` (R205): the block's one way to take an error. It emits the event and counts it, and the step
goes on; there is no return from it (60_exceptions.md R209). -/
def State.raise (c : ErrCond) (info : Byte) (s : State) : State :=
  (s.withDec (s.dec.count c)).emit (.err c.code info)

/-- No frame in flight any more: `dec_mode <- NORM`, `dec_cnt <- 0` (40_decoder.md R106). -/
def Dec.idle (d : Dec) : Dec := { d with decMode := .norm, decCnt := 0#2 }

end Sys2Proof.Machine
end

