-- ==== Sys2Proof/Machine/Interpreter.lean ====
section
/-! DEFINITION. The message interpreter and the message transfer (41_interpreter.md R140 to R148). -/

namespace Sys2Proof.Machine

/-- Outcome ACCEPT (R143): the frame's first three bytes become the pending message. -/
def Dec.accept (d : Dec) : Dec :=
  { d with
    msgAddr := d.decB[0]
    msgVal := valueOf d.decB[1] d.decB[2]
    msgPend := true
    cntOk := d.cntOk + 1 }

/-- Outcome SHORT (R141). -/
def State.rejectShort (s : State) : State :=
  (s.raise .malformedFrame (malformedInfo subShort s.dec.decCnt)).emit .flush

/-- Outcome UNKNOWN (R142). -/
def State.rejectUnknown (s : State) : State :=
  s.raise .unknownAddress s.dec.decB[0]

/-- `Interpret()` (R140): the length first, then the address. -/
def State.interpret (s : State) : State :=
  if s.dec.decCnt.toNat < Config.minMsgLen then s.rejectShort
  else if addrValid s.params s.dec.decB[0] = false then s.rejectUnknown
  else s.withDec s.dec.accept

/-- MSG_TAKE (R146). -/
def execMsgTake (s : State) : Result :=
  stepIf s.takeEnabled
    ((s.withDec { s.dec with msgPend := false }).emit (.msg s.dec.msgAddr s.dec.msgVal)) s

end Sys2Proof.Machine
end

