-- ==== Sys2Proof/Machine/Decoder.lean ====
section
/-! DEFINITION. The decoder operations (40_decoder.md R100 to R106). -/

namespace Sys2Proof.Machine

/-- DEC_DATA (R101). -/
def execDecData (b : Byte) (s : State) : Result :=
  stepIf (s.byteEnabled .norm && isPlain b) (s.append b) s

/-- DEC_ESC (R103). -/
def execDecEsc (s : State) : Result :=
  stepIf (s.byteEnabled .norm) (s.withDec { s.dec with decMode := .escd }) s

/-- DEC_LIT (R104). -/
def execDecLit (b : Byte) (s : State) : Result :=
  let t := s.append b
  stepIf (s.byteEnabled .escd) (t.withDec { t.dec with decMode := .norm }) s

/-- The effect of DEC_TERM (R105): `FEND`, the frame counted, the frame interpreted, and the count cleared; the
interpreter reads `dec_cnt` and `dec_b` as before the step. -/
def State.endFrame (s : State) : State :=
  let t := ((s.emit fend).withDec { s.dec with cntFrames := s.dec.cntFrames + 1 }).interpret
  t.withDec { t.dec with decCnt := 0#2 }

/-- DEC_TERM (R105). -/
def execDecTerm (s : State) : Result :=
  stepIf (s.byteEnabled .norm) s.endFrame s

/-- The first half of DEC_CLOSE (R106): a frame in flight is aborted as DANGLING_ESC or TRUNCATED. -/
def State.abortFrame (s : State) : State :=
  if s.dec.decMode = .escd then
    (s.emit fabort).raise .malformedFrame (malformedInfo subDanglingEsc s.dec.decCnt)
  else if 0#2 < s.dec.decCnt then
    (s.emit fabort).raise .malformedFrame (malformedInfo subTruncated s.dec.decCnt)
  else s

/-- DEC_CLOSE (R106), enabled in every state. -/
def execDecClose (s : State) : Result :=
  let t := s.abortFrame.raise .transportClosed 0x00#8
  .next (t.withDec t.dec.idle)

end Sys2Proof.Machine
end

