-- ==== Sys2Proof/Machine/Encoder.lean ====
section
/-! DEFINITION. The encoder operations (42_encoder.md R170 to R174). -/

namespace Sys2Proof.Machine

/-- ENC_PLAIN (R171). -/
def execEncPlain (d : Byte) (s : State) : Result :=
  stepIf (s.tinEnabled && !resv s.params.escMode d)
    ((s.withEnc { s.enc with encBusy := true }).sendTx d) s

/-- ENC_RESV (R172). -/
def execEncResv (d : Byte) (s : State) : Result :=
  stepIf (s.tinEnabled && resv s.params.escMode d)
    ((s.withEnc { encBusy := true, encPendV := true, encPendB := d }).sendTx Config.ESC) s

/-- ENC_LIT (R173). -/
def execEncLit (s : State) : Result :=
  stepIf s.litEnabled
    ((s.withEnc { s.enc with encPendV := false }).sendTx s.enc.encPendB) s

/-- ENC_END (R174): the symbol's data bits are ignored (U9; log 15). -/
def execEncEnd (_x : Byte) (s : State) : Result :=
  stepIf s.tinEnabled
    ((s.withEnc { s.enc with encBusy := false }).sendTx Config.TERM) s

end Sys2Proof.Machine
end

