-- ==== Sys2Proof/Machine/Reset.lean ====
section
/-! DEFINITION. RESET (70_reset_and_hazards.md R240 to R242). -/

namespace Sys2Proof.Machine

/-- RESET (R240), enabled in every state: every element of 10_state.md R23 to R30 at its value of R38, in one
step, with no event. The parameters are fixed (R31) and ENV is not the block's (R20), so both stand. -/
def execReset (s : State) : Result :=
  .next ((s.withDec Dec.reset).withEnc Enc.reset)

end Sys2Proof.Machine
end

