-- ==== Sys2Proof/Machine/Dispatch.lean ====
section
/-! DEFINITION. One arm per operation of spec/opcode_table.json. -/

namespace Sys2Proof.Machine

def exec (i : Instr) (s : State) : Host.Outcome State Fault Refusal :=
  match i with
  | .decData b => Sys2Proof.Machine.execDecData b s
  | .decEsc => Sys2Proof.Machine.execDecEsc s
  | .decTerm => Sys2Proof.Machine.execDecTerm s
  | .decLit b => Sys2Proof.Machine.execDecLit b s
  | .decClose => Sys2Proof.Machine.execDecClose s
  | .msgTake => Sys2Proof.Machine.execMsgTake s
  | .encPlain d => Sys2Proof.Machine.execEncPlain d s
  | .encResv d => Sys2Proof.Machine.execEncResv d s
  | .encLit => Sys2Proof.Machine.execEncLit s
  | .encEnd x => Sys2Proof.Machine.execEncEnd x s
  | .reset => Sys2Proof.Machine.execReset s

end Sys2Proof.Machine
end

