-- ==== Sys2Proof/Machine/Fetch.lean ====
section
/-! DEFINITION. Which line of the ENV script the next step reads, and the operation it selects
(10_state.md R41, 30_encoding.md R71, R77, R88). -/

namespace Sys2Proof.Machine

/-- `dec_mode` as bit 8 of the decode key (10_state.md R23, 30_encoding.md R71). -/
def DecMode.bit : DecMode → BitVec 1
  | .norm => 0#1
  | .escd => 1#1

/-- The decoder mode of a key's bit 8. -/
def DecMode.ofBit (v : Bool) : DecMode := if v then .escd else .norm

/-- The symbol an action presents: for a received byte the key `{dec_mode, rx_data}` (R71). -/
def State.symbolOf (s : State) : Action → Symbol
  | .rx b => .dkey (mkSym s.dec.decMode.bit b)
  | .close => .close
  | .take => .take
  | .tin y => .tin y
  | .lit => .lit
  | .reset => .reset

/-- The operation an action selects in a state. -/
def State.instrOf (s : State) (a : Action) : Instr := decode s.params.escMode (s.symbolOf a)

/-- Whether a line is an enabled action of ENV (10_state.md R35, R36, R41): a byte with `rx_ready`, a symbol with both
handshakes, a deferred literal with `tx_ready`, a message to take. `Close` and `Reset` are enabled in every state, and
ENV may drive `tx_ready` at any time (log 9). -/
def State.lineEnabled (s : State) : Line → Bool
  | .act (.rx _) => s.rxReady
  | .act (.tin _) => s.tinEnabled
  | .act .lit => s.litEnabled
  | .act .close => true
  | .act .take => s.takeEnabled
  | .act .reset => true
  | .txReady _ => true

/-- A line that waits for a handshake: an `rx` byte while `rx_ready == 0`, a `tin` symbol while `tin_ready == 0` or
`tx_ready == 0`, a `lit` while `tx_ready == 0` (R35, R36). Such a line stays in the script and the lines after it go on
(R88 and program P5 of 95_test_vectors.md; log 2). A `lit` waits whether or not its literal is deferred yet, since the
`tin` symbol that defers it waits for the same `tx_ready` (42_encoder.md R177). A `take` without a message, and with
`tx_ready` a `lit` without a deferred literal, are no steps and are not held (log 3). -/
def State.held (s : State) : Line → Bool
  | .act (.rx _) => !s.rxReady
  | .act (.tin _) => !s.tinEnabled
  | .act .lit => !s.txReady
  | .act .close => false
  | .act .take => false
  | .act .reset => false
  | .txReady _ => false

/-- The first line of a script that is not held, and the script without it. -/
def State.pick (s : State) : List Line → Option (Line × List Line)
  | [] => none
  | l :: rest =>
    if s.held l then
      match s.pick rest with
      | none => none
      | some (x, more) => some (x, l :: more)
    else some (l, rest)

/-- The line the next step reads. -/
def State.fetch (s : State) : Option (Line × List Line) := s.pick s.script

/-- A line carried out: an action runs the operation it selects, and a drive of `tx_ready` sets that level. -/
def runLine (l : Line) (s : State) : Result :=
  match l with
  | .act a => exec (s.instrOf a) s
  | .txReady v => .next { s with txReady := v }

/-- One step: the fetched line leaves the script and is carried out. With no such line no agent has a step and the
state stays as it is (40_decoder.md R110, 60_exceptions.md R215; log 14). -/
def State.stepOnce (s : State) : Result :=
  match s.fetch with
  | none => .next s
  | some (l, rest) => runLine l (s.withScript rest)

/-- A symbol presented to the block so that the very next step reads it (log 11). For a decode key that takes its
mode bit in `dec_mode`, its byte at the front of the script, and `rx_ready`; for an encoder symbol or the deferred
literal, the handshakes of R36. -/
def State.present (y : Symbol) (s : State) : State :=
  match y with
  | .dkey k =>
    { s with
      dec := { s.dec with decMode := DecMode.ofBit (symTop k), msgPend := false }
      script := .act (.rx (symData k)) :: s.script }
  | .tin y =>
    { s with
      enc := { s.enc with encPendV := false }
      txReady := true
      script := .act (.tin y) :: s.script }
  | .lit => { s with txReady := true, script := .act .lit :: s.script }
  | .close => { s with script := .act .close :: s.script }
  | .take => { s with script := .act .take :: s.script }
  | .reset => { s with script := .act .reset :: s.script }

/-- A table word presented to the block; a word that stands for no symbol presents nothing. -/
def State.presentWord (nbits w : Nat) (s : State) : State :=
  match symbolOfWord (tableWord nbits w) with
  | .ok y => s.present y
  | .error _ => s

end Sys2Proof.Machine
end

