-- ==== Sys2Proof/Machine/Step.lean ====
section
/-! DEFINITION. One step of the machine, and a table word placed where the next step reads it. -/

namespace Sys2Proof.Machine

/-- One step: one transition of one agent or a reset (00_scope.md R6). -/
def step (s : State) : Host.Outcome State Fault Refusal := s.stepOnce

/-- `s` with the symbol of a table word presented to the block (log 10, log 11). -/
def State.withFetchWord (s : State) (nbits w : Nat) : State := s.presentWord nbits w

end Sys2Proof.Machine
end

