-- ==== Sys2Proof/Laws/State.lean ====
section
/-! SUPPORT. One lemma per field of State per update, so that no proof unfolds a record update. -/

namespace Sys2Proof.Machine

variable (s : State) (e : DecEvent) (b : Byte) (d : Dec) (n : Enc) (l : List Line)

@[simp] theorem State.emit_dec : (s.emit e).dec = s.dec := rfl
@[simp] theorem State.emit_enc : (s.emit e).enc = s.enc := rfl
@[simp] theorem State.emit_params : (s.emit e).params = s.params := rfl
@[simp] theorem State.emit_script : (s.emit e).script = s.script := rfl
@[simp] theorem State.emit_txReady : (s.emit e).txReady = s.txReady := rfl
@[simp] theorem State.emit_decOut : (s.emit e).decOut = s.decOut ++ [e] := rfl
@[simp] theorem State.emit_txOut : (s.emit e).txOut = s.txOut := rfl

@[simp] theorem State.sendTx_dec : (s.sendTx b).dec = s.dec := rfl
@[simp] theorem State.sendTx_enc : (s.sendTx b).enc = s.enc := rfl
@[simp] theorem State.sendTx_params : (s.sendTx b).params = s.params := rfl
@[simp] theorem State.sendTx_script : (s.sendTx b).script = s.script := rfl
@[simp] theorem State.sendTx_txReady : (s.sendTx b).txReady = s.txReady := rfl
@[simp] theorem State.sendTx_decOut : (s.sendTx b).decOut = s.decOut := rfl
@[simp] theorem State.sendTx_txOut : (s.sendTx b).txOut = s.txOut ++ [b] := rfl

@[simp] theorem State.withDec_dec : (s.withDec d).dec = d := rfl
@[simp] theorem State.withDec_enc : (s.withDec d).enc = s.enc := rfl
@[simp] theorem State.withDec_params : (s.withDec d).params = s.params := rfl
@[simp] theorem State.withDec_script : (s.withDec d).script = s.script := rfl
@[simp] theorem State.withDec_txReady : (s.withDec d).txReady = s.txReady := rfl
@[simp] theorem State.withDec_decOut : (s.withDec d).decOut = s.decOut := rfl
@[simp] theorem State.withDec_txOut : (s.withDec d).txOut = s.txOut := rfl

@[simp] theorem State.withEnc_dec : (s.withEnc n).dec = s.dec := rfl
@[simp] theorem State.withEnc_enc : (s.withEnc n).enc = n := rfl
@[simp] theorem State.withEnc_params : (s.withEnc n).params = s.params := rfl
@[simp] theorem State.withEnc_script : (s.withEnc n).script = s.script := rfl
@[simp] theorem State.withEnc_txReady : (s.withEnc n).txReady = s.txReady := rfl
@[simp] theorem State.withEnc_decOut : (s.withEnc n).decOut = s.decOut := rfl
@[simp] theorem State.withEnc_txOut : (s.withEnc n).txOut = s.txOut := rfl

@[simp] theorem State.withScript_dec : (s.withScript l).dec = s.dec := rfl
@[simp] theorem State.withScript_enc : (s.withScript l).enc = s.enc := rfl
@[simp] theorem State.withScript_params : (s.withScript l).params = s.params := rfl
@[simp] theorem State.withScript_script : (s.withScript l).script = l := rfl
@[simp] theorem State.withScript_txReady : (s.withScript l).txReady = s.txReady := rfl
@[simp] theorem State.withScript_decOut : (s.withScript l).decOut = s.decOut := rfl
@[simp] theorem State.withScript_txOut : (s.withScript l).txOut = s.txOut := rfl

end Sys2Proof.Machine
end

