-- ==== Sys2Proof/Laws/Ops.lean ====
section
/-! SUPPORT. What each shared operation does, said once, and the small facts about symbols and bytes. -/

namespace Sys2Proof

theorem symData_mkSym (t : BitVec 1) (b : Byte) : symData (mkSym t b) = b := by
  simp only [symData, mkSym]
  exact BitVec.extractLsb'_append_eq_right

theorem symTop_mkSym (t : BitVec 1) (b : Byte) : symTop (mkSym t b) = t.getLsbD 0 := by
  simp only [symTop, mkSym, BitVec.getLsbD_append]
  rfl

@[simp] theorem symData_mkSym_zero (b : Byte) : symData (mkSym 0#1 b) = b := symData_mkSym _ b
@[simp] theorem symData_mkSym_one (b : Byte) : symData (mkSym 1#1 b) = b := symData_mkSym _ b
@[simp] theorem symTop_mkSym_zero (b : Byte) : symTop (mkSym 0#1 b) = false := symTop_mkSym _ b
@[simp] theorem symTop_mkSym_one (b : Byte) : symTop (mkSym 1#1 b) = true := symTop_mkSym _ b

/-- A 9-bit symbol is its bit 8 followed by its data. -/
theorem mkSym_symTop_symData (y : Sym9) :
    mkSym (if symTop y then 1#1 else 0#1) (symData y) = y := by
  revert y
  decide

namespace Machine

theorem isPlain_iff (b : Byte) : isPlain b = true ↔ b ≠ 0xFE#8 ∧ b ≠ 0xFF#8 := by
  simp [isPlain, Config.ESC, Config.TERM]

theorem resv_iff (m : EscMode) (d : Byte) :
    resv m d = true ↔ d = 0xFF#8 ∨ (d = 0xFE#8 ∧ m = .twoSided) := by
  simp [resv, Config.ESC, Config.TERM]

/-- A plain byte is reserved in no escaping mode. -/
theorem resv_of_isPlain (m : EscMode) (b : Byte) (h : isPlain b = true) : resv m b = false := by
  rw [isPlain_iff] at h
  simp [resv, Config.ESC, Config.TERM, h]

theorem addrValid_iff (p : Params) (a : Byte) : addrValid p a = true ↔ a ∈ p.addrKeys := by
  simp [addrValid]

theorem satInc_toNat (n : BitVec 2) : (satInc n).toNat = min (n.toNat + 1) 3 := by
  revert n
  decide

/-- The value is the high byte shifted up by 8 and the low byte, as the source writes it (30_encoding.md R76). -/
theorem valueOf_eq_shift (hi lo : Byte) :
    valueOf hi lo = (hi.setWidth 16 <<< 8) ||| lo.setWidth 16 := by
  simp only [valueOf, BitVec.append_def]
  simp [BitVec.shiftLeftZeroExtend_eq]

@[simp] theorem stepIf_true (t s : State) : stepIf true t s = .next t := rfl
@[simp] theorem stepIf_false (t s : State) : stepIf false t s = .next s := rfl

/-- A conditional step answers its effect or the state as it was. -/
theorem stepIf_cases {c : Bool} {t s u : State} (h : stepIf c t s = .next u) :
    (c = true ∧ u = t) ∨ (c = false ∧ u = s) := by
  cases c
  · exact .inr ⟨rfl, by simpa using h.symm⟩
  · exact .inl ⟨rfl, by simpa using h.symm⟩

/-- An enabled action of ENV never waits: it is carried out when the script comes to it. -/
theorem State.not_held_of_lineEnabled {s : State} {l : Line} (h : s.lineEnabled l = true) : s.held l = false := by
  match l with
  | .act (.rx _) => simpa [State.held, State.lineEnabled] using h
  | .act (.tin _) => simpa [State.held, State.lineEnabled] using h
  | .act .lit => simp_all [State.held, State.lineEnabled, State.litEnabled]
  | .act .close => rfl
  | .act .take => rfl
  | .act .reset => rfl
  | .txReady _ => rfl

/-- The capture writes the element at the count and no other (40_decoder.md R102). -/
theorem Dec.store_getElem (b : Byte) (d : Dec) (i : Nat) (h : i < 3) :
    (d.store b).decB[i] = if i = d.decCnt.toNat then b else d.decB[i] := by
  unfold Dec.store
  split
  · simp [Vector.getElem_set, eq_comm]
  · rw [if_neg (by omega)]

/-- The capture touches nothing but `dec_b`. -/
theorem Dec.store_frame (b : Byte) (d : Dec) : d.store b = { d with decB := (d.store b).decB } := by
  unfold Dec.store
  split <;> rfl

/-- What DEC_TERM does: one of the three outcomes of `Interpret` on a frame that is then over
(40_decoder.md R105, 41_interpreter.md R141 to R143). -/
theorem endFrame_cases (s : State) :
    (s.dec.decCnt.toNat < 3 ∧ s.endFrame =
      { s with
        dec := { s.dec with
          decCnt := 0#2
          cntFrames := s.dec.cntFrames + 1
          cntMalformed := s.dec.cntMalformed + 1 }
        decOut := s.decOut ++
          [fend, .err 0b001#3 (malformedInfo subShort s.dec.decCnt), .flush] }) ∨
    (¬ s.dec.decCnt.toNat < 3 ∧ addrValid s.params s.dec.decB[0] = false ∧ s.endFrame =
      { s with
        dec := { s.dec with
          decCnt := 0#2
          cntFrames := s.dec.cntFrames + 1
          cntUnknown := s.dec.cntUnknown + 1 }
        decOut := s.decOut ++ [fend, .err 0b010#3 s.dec.decB[0]] }) ∨
    (¬ s.dec.decCnt.toNat < 3 ∧ addrValid s.params s.dec.decB[0] = true ∧ s.endFrame =
      { s with
        dec := { s.dec with
          decCnt := 0#2
          cntFrames := s.dec.cntFrames + 1
          cntOk := s.dec.cntOk + 1
          msgPend := true
          msgAddr := s.dec.decB[0]
          msgVal := valueOf s.dec.decB[1] s.dec.decB[2] }
        decOut := s.decOut ++ [fend] }) := by
  by_cases hc : s.dec.decCnt.toNat < 3
  · refine .inl ⟨hc, ?_⟩
    simp [State.endFrame, State.interpret, State.rejectShort, State.raise, Dec.count, Config.minMsgLen, hc,
      State.emit, State.withDec, ErrCond.code]
  · cases hv : addrValid s.params s.dec.decB[0]
    · refine .inr (.inl ⟨hc, rfl, ?_⟩)
      simp [State.endFrame, State.interpret, State.rejectUnknown, State.raise, Dec.count, Config.minMsgLen, hc, hv,
        State.emit, State.withDec, ErrCond.code]
    · refine .inr (.inr ⟨hc, rfl, ?_⟩)
      simp [State.endFrame, State.interpret, Dec.accept, Config.minMsgLen, hc, hv,
        State.emit, State.withDec]

/-- What `abortFrame` does (40_decoder.md R106): DANGLING_ESC, TRUNCATED, or nothing. -/
theorem abortFrame_cases (s : State) :
    (s.dec.decMode = .escd ∧ s.abortFrame =
      { s with
        dec := { s.dec with cntMalformed := s.dec.cntMalformed + 1 }
        decOut := s.decOut ++ [fabort, .err 0b001#3 (malformedInfo subDanglingEsc s.dec.decCnt)] }) ∨
    (s.dec.decMode = .norm ∧ 0#2 < s.dec.decCnt ∧ s.abortFrame =
      { s with
        dec := { s.dec with cntMalformed := s.dec.cntMalformed + 1 }
        decOut := s.decOut ++ [fabort, .err 0b001#3 (malformedInfo subTruncated s.dec.decCnt)] }) ∨
    (s.dec.decMode = .norm ∧ s.dec.decCnt = 0#2 ∧ s.abortFrame = s) := by
  cases hm : s.dec.decMode
  · by_cases hc : 0#2 < s.dec.decCnt
    · refine .inr (.inl ⟨rfl, hc, ?_⟩)
      simp [State.abortFrame, hm, hc, State.raise, Dec.count, State.emit, State.withDec, ErrCond.code]
    · refine .inr (.inr ⟨rfl, ?_, ?_⟩)
      · generalize s.dec.decCnt = n at hc
        revert n
        decide
      · simp [State.abortFrame, hm, hc]
  · refine .inl ⟨rfl, ?_⟩
    simp [State.abortFrame, hm, State.raise, Dec.count, State.emit, State.withDec, ErrCond.code]

end Machine

end Sys2Proof
end

