-- ==== Sys2Proof/Laws/PerInstr.lean ====
section
/-! SUPPORT. The family `TableRow` of LAWS.json: an instruction's encoding falls under the pattern of its row of
spec/opcode_table.json. One lemma per constructor of Instr. -/

namespace Sys2Proof.Laws.TableRow

/-- A well-formed instruction's symbol has the format of its row and the bits the row fixes. -/
def Statement (i : Instr) : Prop :=
  ∀ m : EscMode, i.wellFormed m = true → (tableRow i).selects (encode i) = true

/-- The rows whose pattern fixes bit 8 alone. -/
theorem top_zero : ∀ b : Byte, (mkSym 0#1 b &&& 0x100#9 == 0x000#9) = true := by decide
theorem top_one : ∀ b : Byte, (mkSym 1#1 b &&& 0x100#9 == 0x100#9) = true := by decide

theorem decData (b : Byte) : Statement (.decData b) := fun _ _ => top_zero b

theorem decEsc : Statement .decEsc := fun _ _ => rfl
theorem decTerm : Statement .decTerm := fun _ _ => rfl

theorem decLit (b : Byte) : Statement (.decLit b) := fun _ _ => top_one b

theorem decClose : Statement .decClose := fun _ _ => rfl
theorem msgTake : Statement .msgTake := fun _ _ => rfl

theorem encPlain (d : Byte) : Statement (.encPlain d) := fun _ _ => top_zero d

theorem encResv (d : Byte) : Statement (.encResv d) := by
  intro m h
  rcases (Machine.resv_iff m d).mp h with rfl | ⟨rfl, _⟩ <;> rfl

theorem encLit : Statement .encLit := fun _ _ => rfl

theorem encEnd (x : Byte) : Statement (.encEnd x) := fun _ _ => top_one x

theorem reset : Statement .reset := fun _ _ => rfl

end Sys2Proof.Laws.TableRow
end

