-- ==== Sys2Proof/Machine/Reference.lean ====
section
/-! DEFINITION. The spec's reference functions: the decoding function (40_decoder.md R108), the encoding function
(42_encoder.md R177), the wire grammar (30_encoding.md R73), and the DEC events of whole frames. -/

namespace Sys2Proof.Machine

/-- The variables of the loop of R108: the finished frames, the current frame, the mode. -/
abbrev DecodeAcc := List (List Byte) × List Byte × DecMode

/-- One turn of the loop of R108. -/
def decodeTurn (acc : DecodeAcc) (b : Byte) : DecodeAcc :=
  match acc with
  | (frames, cur, .escd) => (frames, cur ++ [b], .norm)
  | (frames, cur, .norm) =>
    if b = Config.ESC then (frames, cur, .escd)
    else if b = Config.TERM then (frames ++ [cur], [], .norm)
    else (frames, cur ++ [b], .norm)

/-- `Decode(s)` of R108: the frames, the bytes of a frame not yet ended, and the mode. -/
def refDecode (bytes : List Byte) : DecodeAcc := bytes.foldl decodeTurn ([], [], .norm)

/-- `Encode(p)` of R177. -/
def refEncode (m : EscMode) (p : List Byte) : List Byte :=
  p.flatMap (fun d => if resv m d then [Config.ESC, d] else [d]) ++ [Config.TERM]

/-- The events of the interpretation of a whole decoded frame (R140 to R143, with the length saturated as in
10_state.md R24), a message being taken at once (R146). -/
def outcomeEvents (p : Params) (f : List Byte) : List DecEvent :=
  match f with
  | a :: hi :: lo :: _ =>
    if addrValid p a then [.msg a (valueOf hi lo)] else [.err 0b010#3 a]
  | short => [.err 0b001#3 (malformedInfo subShort (BitVec.ofNat 2 short.length)), .flush]

/-- All DEC events of one frame: its bytes, its end, its outcome. -/
def frameEvents (p : Params) (f : List Byte) : List DecEvent :=
  f.map fbyte ++ fend :: outcomeEvents p f

/-- An item of the wire grammar of R73: a plain byte, or an escape and any byte. -/
inductive Item where
  | plain (b : Byte)
  | esc (b : Byte)
deriving DecidableEq, Repr

/-- A `plain` item's byte is neither `ESC` nor `TERM`; the byte of an escape is any. -/
def Item.ok : Item → Bool
  | .plain b => isPlain b
  | .esc _ => true

/-- The bytes an item has on the wire. -/
def Item.wire : Item → List Byte
  | .plain b => [b]
  | .esc b => [Config.ESC, b]

/-- The decoded value of an item. -/
def Item.value : Item → Byte
  | .plain b => b
  | .esc b => b

/-- A parse of a byte stream under the grammar of R73: `frame* partial`, the partial one ending in a lone escape
or not. -/
structure Parse where
  frames   : List (List Item)
  rest     : List Item
  dangling : Bool
deriving DecidableEq, Repr

/-- Every item of a parse is one of the grammar. -/
def Parse.ok (p : Parse) : Bool :=
  p.frames.all (fun f => f.all Item.ok) && p.rest.all Item.ok

/-- The byte stream a parse stands for. -/
def Parse.wire (p : Parse) : List Byte :=
  p.frames.flatMap (fun f => f.flatMap Item.wire ++ [Config.TERM])
    ++ p.rest.flatMap Item.wire ++ (if p.dangling then [Config.ESC] else [])

end Sys2Proof.Machine
end

