-- ==== Sys2Proof/Machine/Script.lean ====
section
/-! DEFINITION. Scripts of ENV actions: the notation and the pseudo-operations of 30_encoding.md R88, R89. -/

namespace Sys2Proof.Machine

/-- The script line `rx B`. -/
def rxLine (b : Byte) : Line := .act (.rx b)

/-- The script line `tin B`: the symbol `BYTE(B)` of R77. -/
def tinLine (d : Byte) : Line := .act (.tin (mkSym 0#1 d))

/-- The script line `tin END`, with the data bits 0 a producer should drive (R78). -/
def endLine : Line := .act (.tin (mkSym 1#1 0x00#8))

/-- `rx B1 B2 …`. -/
def rxScript (bytes : List Byte) : List Line := bytes.map rxLine

/-- `encode [b0, …, bk]`: one `lit` after each reserved byte, and `tin END` (R89). -/
def encodeScript (m : EscMode) (p : List Byte) : List Line :=
  p.flatMap (fun d => tinLine d :: (if resv m d then [.act .lit] else [])) ++ [endLine]

/-- `send OP, P1, …, Pn` (R89, 42_encoder.md R180). -/
def sendScript (m : EscMode) (op : Byte) (ps : List Byte) : List Line := encodeScript m (op :: ps)

/-- `frame [b0, …, bk]`: the encoded frame under `TWO_SIDED` on `rx` (R89). -/
def frameScript (f : List Byte) : List Line := rxScript (refEncode .twoSided f)

/-- `msgframe A, V` (R89). -/
def msgframeScript (a : Byte) (v : Value) : List Line :=
  frameScript [a, v.extractLsb' 8 8, v.extractLsb' 0 8]

/-- A byte stream with every message taken before the next byte, the condition of 40_decoder.md R108: a `take` after
each byte, which is no step while no message is pending (log 3). -/
def drainScript (bytes : List Byte) : List Line :=
  bytes.flatMap (fun b => [rxLine b, .act .take])

end Sys2Proof.Machine
end

