-- ==== Sys2Proof/Safety.lean ====
section
/-! DEFINITION. What a good state and a good output are, and runs of several steps, in the words the statements
use. -/

namespace Sys2Proof.Machine

/-- The invariants of 10_state.md R39. -/
structure State.Inv (s : State) : Prop where
  /-- (a) A pending message means no frame in flight. -/
  pend_idle : s.dec.msgPend = true → s.dec.decMode = .norm ∧ s.dec.decCnt = 0#2
  /-- (b) A deferred literal means a payload is under way. -/
  lit_busy : s.enc.encPendV = true → s.enc.encBusy = true
  /-- (c) The deferred literal is a reserved byte. -/
  lit_resv : s.enc.encPendV = true → resv s.params.escMode s.enc.encPendB = true

/-- An event none of whose codes is reserved and whose fields have the values of 30_encoding.md R81 to R83. -/
def DecEvent.legal : DecEvent → Bool
  | .fo kind data => kind == 0b00#2 || ((kind == 0b01#2 || kind == 0b10#2) && data == 0x00#8)
  | .msg _ _ => true
  | .err code info =>
    (code == 0b001#3 && info.extractLsb' 2 4 == 0#4 &&
      ((info.extractLsb' 6 2 == 0b00#2 && info.extractLsb' 0 2 != 3#2) ||
       (info.extractLsb' 6 2 == 0b01#2 && info.extractLsb' 0 2 != 0#2) ||
       info.extractLsb' 6 2 == 0b10#2))
    || code == 0b010#3
    || (code == 0b011#3 && info == 0x00#8)
  | .flush => true

/-- What kind an event is, for counting. -/
def DecEvent.isMsg : DecEvent → Bool
  | .msg _ _ => true
  | .fo _ _ => false
  | .err _ _ => false
  | .flush => false

/-- An error event of any condition. -/
def DecEvent.isError : DecEvent → Bool
  | .err _ _ => true
  | .fo _ _ => false
  | .msg _ _ => false
  | .flush => false

/-- An error event of the condition `c`. -/
def DecEvent.isErr (c : ErrCond) (e : DecEvent) : Bool :=
  match e with
  | .err code _ => code == c.code
  | .fo _ _ => false
  | .msg _ _ => false
  | .flush => false

/-- The bytes a script is still to offer on `rx`, next first. -/
def rxBytes (l : List Line) : List Byte :=
  l.filterMap fun
    | .act (.rx b) => some b
    | _ => none

/-- The symbols a script is still to offer on `tin`, next first. -/
def tinSyms (l : List Line) : List Sym9 :=
  l.filterMap fun
    | .act (.tin y) => some y
    | _ => none

/-- `k` steps. -/
def runs : Nat → State → Result
  | 0, s => .next s
  | k + 1, s =>
    match step s with
    | .next t => runs k t
    | .fault r => .fault r
    | .refused r => .refused r

end Sys2Proof.Machine

namespace Sys2Proof

/-- The operations of agent DEC (00_scope.md R5). -/
def Instr.isDec : Instr → Bool
  | .decData _ => true
  | .decEsc => true
  | .decTerm => true
  | .decLit _ => true
  | .decClose => true
  | .msgTake => true
  | .encPlain _ => false
  | .encResv _ => false
  | .encLit => false
  | .encEnd _ => false
  | .reset => false

/-- The operations of agent ENC (00_scope.md R5). `RESET` is of both agents. -/
def Instr.isEnc : Instr → Bool
  | .decData _ => false
  | .decEsc => false
  | .decTerm => false
  | .decLit _ => false
  | .decClose => false
  | .msgTake => false
  | .encPlain _ => true
  | .encResv _ => true
  | .encLit => true
  | .encEnd _ => true
  | .reset => false

end Sys2Proof
end

