-- ==== Sys2Proof/Certificates/Slice0/Obligations.lean ====
section
/-! DEFINITION. The statements for the provers. -/

open Sys2Proof Sys2Proof.Machine

/-- R240, R242, R38: RESET sets every element of both agents to its reset value, in every state, and emits nothing; the
parameters, the ENV script and what was emitted before stand. Power-on is the same as a `Reset`: a RESET of the reset state
leaves it. -/
def Obligations.ResetSetsEveryElementSilently : Prop :=
  (∀ s : State, exec .reset s = .next
    { dec :=
        { decMode := .norm, decCnt := 0#2, decB := #v[0x00#8, 0x00#8, 0x00#8], msgPend := false,
          msgAddr := 0x00#8, msgVal := 0x0000#16, cntFrames := 0#32, cntOk := 0#32,
          cntMalformed := 0#32, cntUnknown := 0#32 }
      enc := { encBusy := false, encPendV := false, encPendB := 0x00#8 }
      params := s.params, script := s.script, txReady := s.txReady, decOut := s.decOut, txOut := s.txOut }) ∧
  exec .reset State.reset = .next State.reset

/-- R241: after a reset both agents are idle and ready and every counter is 0. -/
def Obligations.AfterResetBothAgentsIdle : Prop :=
  ∀ s : State, ∃ t, exec .reset s = .next t ∧
    t.bridge = .idle ∧ t.frameInFlight = false ∧ t.msgValid = false ∧ t.rxReady = true ∧
    t.enc.encBusy = false ∧ t.tinReady = true ∧
    t.dec.cntFrames = 0#32 ∧ t.dec.cntOk = 0#32 ∧ t.dec.cntMalformed = 0#32 ∧ t.dec.cntUnknown = 0#32

/-- R101, R102: an ordinary byte is captured at index `dec_cnt` while that is below 3, counted up to 3, and emitted;
nothing else changes. -/
def Obligations.DecDataAppendsTheByte : Prop :=
  ∀ (s : State) (b : Byte),
    s.dec.decMode = .norm → s.dec.msgPend = false → b ≠ 0xFE#8 → b ≠ 0xFF#8 →
    ∃ t, exec (.decData b) s = .next t ∧
      t.dec.decCnt.toNat = min (s.dec.decCnt.toNat + 1) 3 ∧
      (∀ i (h : i < 3), t.dec.decB[i] = if i = s.dec.decCnt.toNat then b else s.dec.decB[i]) ∧
      t = { s with
        dec := { s.dec with decCnt := t.dec.decCnt, decB := t.dec.decB }
        decOut := s.decOut ++ [.fo 0b00#2 b] }

/-- R103: an unescaped escape byte opens an escape and does nothing else; no event. -/
def Obligations.DecEscOpensAnEscape : Prop :=
  ∀ s : State, s.dec.decMode = .norm → s.dec.msgPend = false →
    exec .decEsc s = .next { s with dec := { s.dec with decMode := .escd } }

/-- R104, R102: the byte after an escape, whatever it is, is appended and closes the escape. -/
def Obligations.DecLitAppendsAnyByte : Prop :=
  ∀ (s : State) (b : Byte), s.dec.decMode = .escd → s.dec.msgPend = false →
    ∃ t, exec (.decLit b) s = .next t ∧
      t.dec.decCnt.toNat = min (s.dec.decCnt.toNat + 1) 3 ∧
      (∀ i (h : i < 3), t.dec.decB[i] = if i = s.dec.decCnt.toNat then b else s.dec.decB[i]) ∧
      t = { s with
        dec := { s.dec with decMode := .norm, decCnt := t.dec.decCnt, decB := t.dec.decB }
        decOut := s.decOut ++ [.fo 0b00#2 b] }

/-- R105, R141: a terminator after fewer than 3 decoded bytes ends the frame as MalformedFrame SHORT with the length
in `err_info`, then asks for a flush, whatever the address. -/
def Obligations.DecTermRejectsAShortFrame : Prop :=
  ∀ s : State, s.dec.decMode = .norm → s.dec.msgPend = false → s.dec.decCnt.toNat < 3 →
    exec .decTerm s = .next { s with
      dec := { s.dec with
        decCnt := 0#2
        cntFrames := s.dec.cntFrames + 1
        cntMalformed := s.dec.cntMalformed + 1 }
      decOut := s.decOut ++ [.fo 0b01#2 0x00#8, .err 0b001#3 (s.dec.decCnt.setWidth 8), .flush] }

/-- R105, R142: a terminator after three or more bytes with an address outside the table reports that address and
makes no message. -/
def Obligations.DecTermRejectsAnUnknownAddress : Prop :=
  ∀ s : State, s.dec.decMode = .norm → s.dec.msgPend = false → s.dec.decCnt = 3#2 →
    s.dec.decB[0] ∉ s.params.addrKeys →
    exec .decTerm s = .next { s with
      dec := { s.dec with
        decCnt := 0#2
        cntFrames := s.dec.cntFrames + 1
        cntUnknown := s.dec.cntUnknown + 1 }
      decOut := s.decOut ++ [.fo 0b01#2 0x00#8, .err 0b010#3 s.dec.decB[0]] }

/-- R105, R143, R76: a terminator after three or more bytes with a known address makes the pending message, its value
big-endian. -/
def Obligations.DecTermAcceptsAMessage : Prop :=
  ∀ s : State, s.dec.decMode = .norm → s.dec.msgPend = false → s.dec.decCnt = 3#2 →
    s.dec.decB[0] ∈ s.params.addrKeys →
    exec .decTerm s = .next { s with
      dec := { s.dec with
        decCnt := 0#2
        cntFrames := s.dec.cntFrames + 1
        cntOk := s.dec.cntOk + 1
        msgPend := true
        msgAddr := s.dec.decB[0]
        msgVal := (s.dec.decB[1].setWidth 16 <<< 8) ||| s.dec.decB[2].setWidth 16 }
      decOut := s.decOut ++ [.fo 0b01#2 0x00#8] }

/-- R105, R207, R109: whatever its outcome, a terminator emits FEND first and at most one error of any code, counts the
frame, keeps the captured bytes, and leaves the decoder idle; an accepted frame raises nothing. An `0xFF` received after
an escape is DEC_LIT, not DEC_TERM. -/
def Obligations.EveryTerminatorEndsTheFrame : Prop :=
  (∀ s : State, s.dec.decMode = .norm → s.dec.msgPend = false →
    ∃ t evs, exec .decTerm s = .next t ∧ t.decOut = s.decOut ++ fend :: evs ∧
      evs.countP DecEvent.isError ≤ 1 ∧
      (t.dec.msgPend = true → evs = []) ∧
      t.dec.cntFrames = s.dec.cntFrames + 1 ∧ t.dec.decB = s.dec.decB ∧
      t.dec.decMode = .norm ∧ t.dec.decCnt = 0#2) ∧
  (∀ s : State, s.dec.decMode = .norm → s.instrOf (.rx 0xFF#8) = .decTerm) ∧
  (∀ s : State, s.dec.decMode = .escd → s.instrOf (.rx 0xFF#8) = .decLit 0xFF#8)

/-- R106: in every state a close aborts the frame in flight as DANGLING_ESC or TRUNCATED with the saturated length,
reports TransportClosed, and leaves the decoder idle; a pending message, the other counters and the encoder stand. -/
def Obligations.CloseAbortsTheFrameInFlight : Prop :=
  ∀ s : State, exec .decClose s = .next { s with
    dec := { s.dec with
      decMode := .norm
      decCnt := 0#2
      cntMalformed :=
        if s.dec.decMode = .escd ∨ s.dec.decCnt ≠ 0#2 then s.dec.cntMalformed + 1 else s.dec.cntMalformed }
    decOut := s.decOut ++
      (if s.dec.decMode = .escd then
        [.fo 0b10#2 0x00#8, .err 0b001#3 (0x80#8 ||| s.dec.decCnt.setWidth 8)]
      else if s.dec.decCnt ≠ 0#2 then
        [.fo 0b10#2 0x00#8, .err 0b001#3 (0x40#8 ||| s.dec.decCnt.setWidth 8)]
      else []) ++ [.err 0b011#3 0x00#8] }

/-- R146: taking the pending message transfers it and clears `msg_pend`; the register keeps its value. -/
def Obligations.TakeTransfersTheMessage : Prop :=
  ∀ s : State, s.dec.msgPend = true →
    exec .msgTake s = .next { s with
      dec := { s.dec with msgPend := false }
      decOut := s.decOut ++ [.msg s.dec.msgAddr s.dec.msgVal] }

/-- R171: a payload byte that is not reserved is sent as itself. -/
def Obligations.EncPlainSendsTheByte : Prop :=
  ∀ (s : State) (d : Byte), s.enc.encPendV = false → s.txReady = true →
    d ≠ 0xFF#8 → (d = 0xFE#8 → s.params.escMode = .termOnly) →
    exec (.encPlain d) s = .next { s with
      enc := { s.enc with encBusy := true }
      txOut := s.txOut ++ [d] }

/-- R172: a reserved payload byte sends the escape and defers the byte. -/
def Obligations.EncResvSendsTheEscape : Prop :=
  ∀ (s : State) (d : Byte), s.enc.encPendV = false → s.txReady = true →
    (d = 0xFF#8 ∨ (d = 0xFE#8 ∧ s.params.escMode = .twoSided)) →
    exec (.encResv d) s = .next { s with
      enc := { encBusy := true, encPendV := true, encPendB := d }
      txOut := s.txOut ++ [0xFE#8] }

/-- R173: the deferred literal is sent unchanged. -/
def Obligations.EncLitSendsTheLiteral : Prop :=
  ∀ s : State, s.enc.encPendV = true → s.txReady = true →
    exec .encLit s = .next { s with
      enc := { s.enc with encPendV := false }
      txOut := s.txOut ++ [s.enc.encPendB] }

/-- R174: the end of a payload sends the terminator in both modes, whatever the symbol's data bits, also for the empty
payload. -/
def Obligations.EncEndSendsTheTerminator : Prop :=
  ∀ (s : State) (x : Byte), s.enc.encPendV = false → s.txReady = true →
    exec (.encEnd x) s = .next { s with
      enc := { s.enc with encBusy := false }
      txOut := s.txOut ++ [0xFF#8] }

/-- The model's form of a step that does not exist (00_scope R11, R100, R146, R36; log 4): an operation whose condition
is false leaves the state as it was. -/
def Obligations.DisabledOperationsHold : Prop :=
  (∀ (s : State) (b : Byte),
    s.dec.msgPend = true ∨ s.dec.decMode = .escd ∨ b = 0xFE#8 ∨ b = 0xFF#8 → exec (.decData b) s = .next s) ∧
  (∀ s : State, s.dec.msgPend = true ∨ s.dec.decMode = .escd → exec .decEsc s = .next s ∧ exec .decTerm s = .next s) ∧
  (∀ (s : State) (b : Byte), s.dec.msgPend = true ∨ s.dec.decMode = .norm → exec (.decLit b) s = .next s) ∧
  (∀ s : State, s.dec.msgPend = false → exec .msgTake s = .next s) ∧
  (∀ (s : State) (d : Byte), s.enc.encPendV = true ∨ s.txReady = false ∨ resv s.params.escMode d = true →
    exec (.encPlain d) s = .next s) ∧
  (∀ (s : State) (d : Byte), s.enc.encPendV = true ∨ s.txReady = false ∨ resv s.params.escMode d = false →
    exec (.encResv d) s = .next s) ∧
  (∀ (s : State) (x : Byte), s.enc.encPendV = true ∨ s.txReady = false → exec (.encEnd x) s = .next s) ∧
  (∀ s : State, s.enc.encPendV = false ∨ s.txReady = false → exec .encLit s = .next s)

/-- R172, R36: after ENC_RESV no payload symbol is taken before the literal, so `ESC, d` are adjacent on `tx`. That an
operation of a payload symbol which is not taken answers the same state is the model's form (log 4). -/
def Obligations.EscapeAndLiteralAdjacent : Prop :=
  ∀ (s : State) (d : Byte), s.enc.encPendV = false → s.txReady = true → resv s.params.escMode d = true →
    ∃ t, exec (.encResv d) s = .next t ∧ t.tinReady = false ∧
      (∀ x : Byte, exec (.encPlain x) t = .next t ∧ exec (.encResv x) t = .next t ∧ exec (.encEnd x) t = .next t) ∧
      ∃ u, exec .encLit t = .next u ∧ u.txOut = s.txOut ++ [0xFE#8, d] ∧ u.tinReady = true ∧ u.enc.encBusy = true

/-- R72: the decode map, over all 512 keys, in every escaping mode. -/
def Obligations.DecodeMapIsTheTable : Prop :=
  ∀ m : EscMode,
    (∀ b : Byte, b ≠ 0xFE#8 → b ≠ 0xFF#8 → decode m (.dkey (0#1 ++ b)) = .decData b) ∧
    decode m (.dkey (0#1 ++ 0xFE#8)) = .decEsc ∧
    decode m (.dkey (0#1 ++ 0xFF#8)) = .decTerm ∧
    (∀ b : Byte, decode m (.dkey (1#1 ++ b)) = .decLit b) ∧
    (∀ k : Sym9, ∃ (v : BitVec 1) (b : Byte), k = v ++ b)

/-- R78: the encoder map, over all 512 symbols, in each escaping mode. -/
def Obligations.EncoderMapIsTheTable : Prop :=
  (∀ (m : EscMode) (d : Byte), d ≠ 0xFE#8 → d ≠ 0xFF#8 → decode m (.tin (0#1 ++ d)) = .encPlain d) ∧
  decode .twoSided (.tin (0#1 ++ 0xFE#8)) = .encResv 0xFE#8 ∧
  decode .termOnly (.tin (0#1 ++ 0xFE#8)) = .encPlain 0xFE#8 ∧
  (∀ m : EscMode, decode m (.tin (0#1 ++ 0xFF#8)) = .encResv 0xFF#8) ∧
  (∀ (m : EscMode) (x : Byte), decode m (.tin (1#1 ++ x)) = .encEnd x) ∧
  (∀ m : EscMode, decode m .lit = .encLit)

/-- A few words written out from the spec's encodings (R71, R72, R77, R78) decode to what they stand for. -/
def Obligations.WrittenOutSymbolsDecode : Prop :=
  decode .twoSided (.dkey 0b001000001#9) = .decData 0x41#8 ∧
  decode .twoSided (.dkey 0b011111110#9) = .decEsc ∧
  decode .twoSided (.dkey 0b011111111#9) = .decTerm ∧
  decode .twoSided (.dkey 0b111111111#9) = .decLit 0xFF#8 ∧
  decode .twoSided (.tin 0b001000001#9) = .encPlain 0x41#8 ∧
  decode .twoSided (.tin 0b011111110#9) = .encResv 0xFE#8 ∧
  decode .termOnly (.tin 0b011111110#9) = .encPlain 0xFE#8 ∧
  decode .twoSided (.tin 0b110101011#9) = .encEnd 0xAB#8 ∧
  decode .twoSided .close = .decClose ∧ decode .twoSided .take = .msgTake ∧
  decode .twoSided .lit = .encLit ∧ decode .twoSided .reset = .reset

/-- Decoding the encoding of a well-formed instruction gives it back, for every operand, in each mode. -/
def Obligations.DecodeOfEncodeIsTheInstruction : Prop :=
  ∀ (m : EscMode) (i : Instr), i.wellFormed m = true → decode m (encode i) = i

/-- R85: no input symbol is illegal: every symbol decodes to a well-formed instruction, and that instruction's encoding
is the symbol, so no two symbols decode to the same instruction with its operand. For END this rests on the model's
keeping the ignored data bits as the operand (log 15). -/
def Obligations.EverySymbolSelectsExactlyOneOperation : Prop :=
  ∀ (m : EscMode) (y : Symbol), (decode m y).wellFormed m = true ∧ encode (decode m y) = y

/-- The model's numbering of symbols as words (log 10) loses nothing. -/
def Obligations.SymbolWordsReadBack : Prop :=
  ∀ y : Symbol, symbolOfWord y.word = .ok y

/-- R41, R71, R77: a step whose next line is an action that is not held is `exec` of the operation that the action's
symbol decodes to, with the line taken from the script. -/
def Obligations.StepRunsTheDecodedOperation : Prop :=
  ∀ (s : State) (rest : List Line),
    (∀ b : Byte, s.script = .act (.rx b) :: rest → s.dec.msgPend = false →
      step s = exec (decode s.params.escMode (.dkey (mkSym s.dec.decMode.bit b))) { s with script := rest }) ∧
    (∀ y : Sym9, s.script = .act (.tin y) :: rest → s.enc.encPendV = false → s.txReady = true →
      step s = exec (decode s.params.escMode (.tin y)) { s with script := rest }) ∧
    (s.script = .act .lit :: rest → s.txReady = true →
      step s = exec (decode s.params.escMode .lit) { s with script := rest }) ∧
    (s.script = .act .close :: rest → step s = exec (decode s.params.escMode .close) { s with script := rest }) ∧
    (s.script = .act .take :: rest → step s = exec (decode s.params.escMode .take) { s with script := rest }) ∧
    (s.script = .act .reset :: rest → step s = exec (decode s.params.escMode .reset) { s with script := rest })

/-- R88 as program P5 shows it (log 2): lines that are held stay offered, in order, and the first line that is not held
is carried out. -/
def Obligations.HeldLinesStayOffered : Prop :=
  ∀ (s : State) (front : List Line) (l : Line) (rest : List Line),
    s.script = front ++ l :: rest → (∀ x ∈ front, s.held x = true) → s.held l = false →
    step s = runLine l { s with script := front ++ rest }

/-- R110, R215: with no enabled action no agent has a step, so a step changes nothing of the block, its parameters,
`tx_ready` or its outputs, and loses no byte or symbol still to be offered; it can only pass a `take` or `lit` line that
is no step (log 3). Where every line is held it answers the very same state (log 14). -/
def Obligations.NothingChangesWithoutAnEnabledAction : Prop :=
  (∀ s : State, (∀ x ∈ s.script, s.held x = true) → step s = .next s) ∧
  (∀ s : State, (∀ x ∈ s.script, s.lineEnabled x = false) →
    ∃ rest, step s = .next { s with script := rest } ∧ rxBytes rest = rxBytes s.script ∧ tinSyms rest = tinSyms s.script)

/-- The model's own script line for the port `tx_ready` (log 9): it sets the level and nothing else. -/
def Obligations.TxReadyLineSetsTheLevel : Prop :=
  ∀ (s : State) (v : Bool) (rest : List Line), s.script = .txReady v :: rest →
    step s = .next { s with txReady := v, script := rest }

/-- R55, R100, R35: a step either carries out no received byte (it changes nothing, or carries out another line of the
script) and leaves the bytes still to be received as they are, or takes the first of them, with `rx_ready`, and runs the
one operation its key selects. -/
def Obligations.ReceivedBytesConsumedOnceInOrder : Prop :=
  ∀ s t : State, step s = .next t →
    (rxBytes t.script = rxBytes s.script ∧
      (t = s ∨ ∃ front l rest, s.script = front ++ l :: rest ∧ (∀ b : Byte, l ≠ .act (.rx b)) ∧
        runLine l { s with script := front ++ rest } = .next t)) ∨
    ∃ b, rxBytes s.script = b :: rxBytes t.script ∧ s.rxReady = true ∧
      exec (decode s.params.escMode (.dkey (mkSym s.dec.decMode.bit b))) { s with script := t.script } = .next t

/-- R36: a step either carries out no payload symbol (it changes nothing, or carries out another line of the script) and
leaves the symbols still to be presented as they are, or takes the first of them, with `tin_ready` and `tx_ready`, and
emits exactly one byte. -/
def Obligations.PayloadSymbolsTakenOnceInOrder : Prop :=
  ∀ s t : State, step s = .next t →
    (tinSyms t.script = tinSyms s.script ∧
      (t = s ∨ ∃ front l rest, s.script = front ++ l :: rest ∧ (∀ y : Sym9, l ≠ .act (.tin y)) ∧
        runLine l { s with script := front ++ rest } = .next t)) ∨
    ∃ y, tinSyms s.script = y :: tinSyms t.script ∧ s.tinReady = true ∧ s.txReady = true ∧
      (∃ b, t.txOut = s.txOut ++ [b]) ∧
      exec (decode s.params.escMode (.tin y)) { s with script := t.script } = .next t

/-- The model's placing of a table word (log 10, log 11): the very next step runs the instruction the decoder reads from
it. -/
def Obligations.WordPlacedIsRunNext : Prop :=
  ∀ (s : State) (nbits w : Nat) (i : Instr), s.params.escMode = .twoSided → decodeTableWord nbits w = some i →
    step (s.withFetchWord nbits w) = exec i { s.withFetchWord nbits w with script := s.script }

/-- The model's form of R200, R107 and R175 (no error stops the block): every operation and every step answers a next
state. That a disabled or ill-formed operation (log 4) and a step with no enabled action (log 14) answer one too, and that
there is no fault at all (log 18), is the model's choice. -/
def Obligations.NoStepStops : Prop :=
  (∀ (i : Instr) (s : State), ∃ t, exec i s = .next t) ∧ ∀ s : State, ∃ t, step s = .next t

/-- R39: the invariants hold at reset. -/
def Obligations.InvariantsHoldAtReset : Prop := State.reset.Inv

/-- R39: every step keeps the invariants. -/
def Obligations.EveryStepKeepsTheInvariants : Prop :=
  ∀ s t : State, s.Inv → step s = .next t → t.Inv

/-- R31, R246: no step changes a parameter. -/
def Obligations.NoStepChangesAParameter : Prop :=
  ∀ s t : State, step s = .next t → t.params = s.params

/-- R85, R81 to R83: no step emits a reserved code or an info value outside its layout, or takes back an event. -/
def Obligations.OnlyLegalEventsAreEmitted : Prop :=
  ∀ s t : State, step s = .next t →
    ∃ evs : List DecEvent, t.decOut = s.decOut ++ evs ∧ ∀ e ∈ evs, e.legal = true

/-- R28, R205, R147: in every operation but RESET the frame counter counts the FEND events, the error counters count the
error events of their condition, and the messages taken and pending account for `cnt_ok`. -/
def Obligations.CountersAccountForEvents : Prop :=
  ∀ (i : Instr) (s t : State), i ≠ .reset → exec i s = .next t →
    ∃ evs : List DecEvent, t.decOut = s.decOut ++ evs ∧
      t.dec.cntFrames = s.dec.cntFrames + BitVec.ofNat 32 (evs.count fend) ∧
      t.dec.cntMalformed = s.dec.cntMalformed + BitVec.ofNat 32 (evs.countP (DecEvent.isErr .malformedFrame)) ∧
      t.dec.cntUnknown = s.dec.cntUnknown + BitVec.ofNat 32 (evs.countP (DecEvent.isErr .unknownAddress)) ∧
      BitVec.ofNat 32 (evs.countP DecEvent.isMsg + t.dec.msgPend.toNat) + s.dec.cntOk =
        BitVec.ofNat 32 s.dec.msgPend.toNat + t.dec.cntOk

/-- R26, R27: a pending message stays pending and unchanged under every operation but MSG_TAKE and RESET, and only DEC_TERM
makes one pending. -/
def Obligations.PendingMessageIsKept : Prop :=
  (∀ (i : Instr) (s t : State), i ≠ .msgTake → i ≠ .reset → s.dec.msgPend = true → exec i s = .next t →
    t.dec.msgPend = true ∧ t.dec.msgAddr = s.dec.msgAddr ∧ t.dec.msgVal = s.dec.msgVal) ∧
  (∀ (i : Instr) (s t : State), i ≠ .decTerm → s.dec.msgPend = false → exec i s = .next t → t.dec.msgPend = false)

/-- R176: no operation of one agent changes the other's state, outputs, or the parameters. -/
def Obligations.AgentsChangeOnlyThemselves : Prop :=
  (∀ (i : Instr) (s t : State), i.isDec = true → exec i s = .next t →
    t = { s with dec := t.dec, decOut := t.decOut }) ∧
  (∀ (i : Instr) (s t : State), i.isEnc = true → exec i s = .next t →
    t = { s with enc := t.enc, txOut := t.txOut })

/-- R58, R176: what an operation of one agent does depends on nothing of the other: from two states that agree on the
agent's own elements (and on the parameters, and for ENC on `tx_ready`) it leaves the same elements and emits the same. -/
def Obligations.AgentsSeeOnlyThemselves : Prop :=
  (∀ (i : Instr) (s₁ s₂ : State), i.isDec = true → s₁.dec = s₂.dec → s₁.params = s₂.params →
    ∃ t₁ t₂ evs, exec i s₁ = .next t₁ ∧ exec i s₂ = .next t₂ ∧ t₁.dec = t₂.dec ∧
      t₁.decOut = s₁.decOut ++ evs ∧ t₂.decOut = s₂.decOut ++ evs) ∧
  (∀ (i : Instr) (s₁ s₂ : State), i.isEnc = true → s₁.enc = s₂.enc → s₁.params = s₂.params →
    s₁.txReady = s₂.txReady →
    ∃ t₁ t₂ out, exec i s₁ = .next t₁ ∧ exec i s₂ = .next t₂ ∧ t₁.enc = t₂.enc ∧
      t₁.txOut = s₁.txOut ++ out ∧ t₂.txOut = s₂.txOut ++ out)

/-- R58: the order of a DEC operation and an ENC operation makes no difference. -/
def Obligations.AgentsCommute : Prop :=
  ∀ (d e : Instr) (s : State), d.isDec = true → e.isEnc = true →
    ∃ s₁ s₂ t, exec d s = .next s₁ ∧ exec e s₁ = .next t ∧ exec e s = .next s₂ ∧ exec d s₂ = .next t

/-- R144, R145: the outcome of a frame depends only on its saturated length, its first three bytes (of a shorter frame,
the bytes it has: R40) and the table. -/
def Obligations.OutcomeDependsOnFirstThreeBytes : Prop :=
  ∀ s₁ s₂ : State,
    s₁.dec.decMode = .norm → s₂.dec.decMode = .norm → s₁.dec.msgPend = false → s₂.dec.msgPend = false →
    s₁.dec.decCnt = s₂.dec.decCnt →
    (∀ i (h : i < 3), i < s₁.dec.decCnt.toNat → s₁.dec.decB[i] = s₂.dec.decB[i]) →
    s₁.params.addrKeys = s₂.params.addrKeys →
    ∃ t₁ t₂ evs, exec .decTerm s₁ = .next t₁ ∧ exec .decTerm s₂ = .next t₂ ∧
      t₁.decOut = s₁.decOut ++ evs ∧ t₂.decOut = s₂.decOut ++ evs ∧ t₁.dec.msgPend = t₂.dec.msgPend ∧
      (t₁.dec.msgPend = true → t₁.dec.msgAddr = t₂.dec.msgAddr ∧ t₁.dec.msgVal = t₂.dec.msgVal)

/-- R37: the moves between the derived bridge states. -/
def Obligations.BridgeStatesMove : Prop :=
  ∀ s : State, s.Inv →
    (∀ b : Byte, s.bridge = .idle → b ≠ 0xFF#8 →
      ∃ t, exec (s.instrOf (.rx b)) s = .next t ∧ t.bridge = .readingFrame) ∧
    (s.bridge = .idle → ∃ t, exec (s.instrOf (.rx 0xFF#8)) s = .next t ∧ t.bridge = .idle ∧
      t.dec.cntMalformed = s.dec.cntMalformed + 1) ∧
    (∀ b : Byte, s.bridge = .readingFrame → s.instrOf (.rx b) ≠ .decTerm →
      ∃ t, exec (s.instrOf (.rx b)) s = .next t ∧ t.bridge = .readingFrame) ∧
    (s.bridge = .readingFrame → s.dec.decMode = .norm →
      ∃ t, exec (s.instrOf (.rx 0xFF#8)) s = .next t ∧
        t.bridge = if s.dec.decCnt = 3#2 ∧ s.dec.decB[0] ∈ s.params.addrKeys then .publishing else .idle) ∧
    (s.bridge = .publishing → ∃ t, exec .msgTake s = .next t ∧ t.bridge = .idle)

/-- R8: `P_ADDR_VALID` may be any function of the address byte: every one is some state's table. -/
def Obligations.EveryAddressTableIsModelled : Prop :=
  ∀ f : Byte → Bool, ∃ keys : List Byte, ∀ (m : EscMode) (a : Byte), addrValid { escMode := m, addrKeys := keys } a = f a

/-- R108, R140 to R147: an idle decoder that receives a byte stream, every message being taken before the next byte, emits
for every frame of `Decode` its bytes, its end and its outcome, in order, then the bytes of the unfinished frame; and it
holds the mode, the saturated length and the first bytes of that frame. A `take` line after a byte that made no message
is no step and is passed (log 3). -/
def Obligations.DecoderRefinesDecode : Prop :=
  ∀ (s : State) (bytes : List Byte) (more : List Line),
    s.dec.decMode = .norm → s.dec.decCnt = 0#2 → s.dec.msgPend = false →
    s.script = drainScript bytes ++ more →
    ∃ t, runs (drainScript bytes).length s = .next t ∧
      t.decOut = s.decOut ++ (refDecode bytes).1.flatMap (frameEvents s.params)
        ++ (refDecode bytes).2.1.map fbyte ∧
      t.dec.decMode = (refDecode bytes).2.2 ∧
      t.dec.decCnt.toNat = min (refDecode bytes).2.1.length 3 ∧
      (∀ i (h : i < 3) (h' : i < (refDecode bytes).2.1.length), t.dec.decB[i] = (refDecode bytes).2.1[i]) ∧
      t.dec.msgPend = false ∧
      t.script = more ∧ t.enc = s.enc ∧ t.txOut = s.txOut ∧ t.txReady = s.txReady ∧ t.params = s.params

/-- R177, R89: the encoder, presented a payload as the pseudo-operation `encode` presents it, emits `Encode(p)` and is
idle again. -/
def Obligations.EncoderRefinesEncode : Prop :=
  ∀ (s : State) (p : List Byte) (more : List Line),
    s.enc.encPendV = false → s.txReady = true → s.script = encodeScript s.params.escMode p ++ more →
    ∃ t, runs (encodeScript s.params.escMode p).length s = .next t ∧
      t.txOut = s.txOut ++ refEncode s.params.escMode p ∧
      t.enc.encBusy = false ∧ t.enc.encPendV = false ∧
      t.script = more ∧ t.dec = s.dec ∧ t.decOut = s.decOut ∧ t.txReady = s.txReady ∧ t.params = s.params

/-- R177, R88, R36: a payload offered while `tx_ready` is 0 waits whole, its literals with it (log 2), and is sent as
`Encode(p)` once ENV raises `tx_ready` (log 9). -/
def Obligations.EncoderWaitsForTxReady : Prop :=
  ∀ (s : State) (p : List Byte) (more : List Line),
    s.enc.encPendV = false → s.txReady = false →
    s.script = encodeScript s.params.escMode p ++ .txReady true :: more →
    ∃ t, runs ((encodeScript s.params.escMode p).length + 1) s = .next t ∧
      t.txOut = s.txOut ++ refEncode s.params.escMode p ∧
      t.enc.encBusy = false ∧ t.enc.encPendV = false ∧
      t.script = more ∧ t.dec = s.dec ∧ t.decOut = s.decOut ∧ t.txReady = true ∧ t.params = s.params

/-- R178: the round trip under two-sided escaping, for any number of payloads. -/
def Obligations.TwoSidedRoundTrip : Prop :=
  ∀ ps : List (List Byte), refDecode (ps.flatMap (refEncode .twoSided)) = (ps, [], .norm)

/-- R179: under terminator-only escaping the round trip holds exactly for the payloads without `0xFE`. -/
def Obligations.TermOnlyRoundTripIffNoEscape : Prop :=
  ∀ p : List Byte, refDecode (refEncode .termOnly p) = ([p], [], .norm) ↔ 0xFE#8 ∉ p

/-- R179 (a), (b), (c), for one `0xFE` that is read as an escape. -/
def Obligations.TermOnlyMisdecodings : Prop :=
  ∀ q r : List Byte, 0xFE#8 ∉ q → 0xFE#8 ∉ r →
    (∀ x : Byte, x ≠ 0xFF#8 →
      refDecode (refEncode .termOnly (q ++ [0xFE#8, x] ++ r)) = ([q ++ [x] ++ r], [], .norm)) ∧
    refDecode (refEncode .termOnly (q ++ [0xFE#8, 0xFF#8] ++ r)) = ([q ++ [0xFE#8], r], [], .norm) ∧
    refDecode (refEncode .termOnly (q ++ [0xFE#8])) = ([], q ++ [0xFF#8], .norm)

/-- The two agents joined: what the encoder sends for a payload under two-sided escaping, received by the decoder, is that
payload as one frame with its outcome (R177, R178, R108). -/
def Obligations.LoopbackDeliversThePayload : Prop :=
  ∀ (s : State) (p : List Byte),
    s.params.escMode = .twoSided → s.enc.encPendV = false → s.txReady = true →
    s.dec.decMode = .norm → s.dec.decCnt = 0#2 → s.dec.msgPend = false → s.txOut = [] →
    s.script = encodeScript .twoSided p →
    ∃ t, runs s.script.length s = .next t ∧
      ∃ u, runs (drainScript t.txOut).length { t with script := drainScript t.txOut } = .next u ∧
        u.decOut = s.decOut ++ frameEvents s.params p ∧ u.dec.decMode = .norm ∧ u.dec.decCnt = 0#2

/-- R86: the length of an encoded frame. -/
def Obligations.EncodedLength : Prop :=
  ∀ (m : EscMode) (p : List Byte), (refEncode m p).length = p.length + p.countP (resv m) + 1

/-- R73: every byte stream parses in exactly one way under the wire grammar. -/
def Obligations.EveryStreamParsesUniquely : Prop :=
  ∀ bytes : List Byte, ∃! p : Parse, p.ok = true ∧ p.wire = bytes

/-- R73: the decoded frames of a stream are the values of its parse's items. -/
def Obligations.ParseGivesTheDecodedFrames : Prop :=
  ∀ p : Parse, p.ok = true →
    refDecode p.wire =
      (p.frames.map (fun f => f.map Item.value), p.rest.map Item.value, if p.dangling then .escd else .norm)

/-- R244: whatever was received before, two `0xFF` bytes (two `encode []`) leave the decoder idle. -/
def Obligations.TwoEmptyPayloadsRealign : Prop :=
  ∀ bytes : List Byte, ∃ frames, refDecode (bytes ++ [0xFF#8, 0xFF#8]) = (frames, [], .norm)

/-- R89, R143: `msgframe A, V` with a known address leaves the message (A, V) pending, whatever the bytes of A and V. -/
def Obligations.MsgFrameBecomesTheMessage : Prop :=
  ∀ (s : State) (a : Byte) (v : Value) (more : List Line),
    s.dec.decMode = .norm → s.dec.decCnt = 0#2 → s.dec.msgPend = false → a ∈ s.params.addrKeys →
    s.script = msgframeScript a v ++ more →
    ∃ t, runs (msgframeScript a v).length s = .next t ∧
      t.dec.msgPend = true ∧ t.dec.msgAddr = a ∧ t.dec.msgVal = v ∧ t.dec.cntOk = s.dec.cntOk + 1 ∧
      t.decOut = s.decOut ++
        [fbyte a, fbyte (v.extractLsb' 8 8), fbyte (v.extractLsb' 0 8), fend] ∧
      t.script = more ∧ t.enc = s.enc
end

