-- ==== Sys2Proof/Tests/Slice0.lean ====
section
/-! SUPPORT. Tests: the ill-formed terms WellFormed refuses, encodings written out bit by bit, single-step vectors of
spec/95_test_vectors.md (each named in its comment), and a witness for every statement that has hypotheses. -/

namespace Sys2Proof.Machine.Tests

/-- The vectors' start state `S0` with the test table `T` (95_test_vectors.md, conventions; D28). -/
def s0 : State :=
  { State.reset with params := { escMode := .twoSided, addrKeys := [0x10#8, 0x11#8, 0xFF#8] } }

/-- `S0` under `TERM_ONLY`. -/
def s0t : State := { s0 with params := { s0.params with escMode := .termOnly } }

/-- `S0` with a decoder mode, a count and captured bytes. -/
def sDec (m : DecMode) (n : BitVec 2) (b : Vector Byte 3) : State :=
  { s0 with dec := { s0.dec with decMode := m, decCnt := n, decB := b } }

/-- `S0` with a pending message. -/
def sMsg (a : Byte) (v : Value) : State :=
  { s0 with dec := { s0.dec with msgPend := true, msgAddr := a, msgVal := v } }

/-- `S0` with a deferred literal. -/
def sLit (b : Byte) : State := { s0 with enc := { encBusy := true, encPendV := true, encPendB := b } }

/-- `s` with a script. -/
def scripted (l : List Line) (s : State) : State := { s with script := l }

/-- The answer is a next state of which `p` holds. -/
def got (o : Result) (p : State → Bool) : Bool :=
  match o with
  | .next t => p t
  | .fault _ => false
  | .refused _ => false

/-! ## Well-formedness: each check refuses an ill-formed term -/

theorem test_illFormed_decData_esc : Instr.wellFormed .twoSided (.decData 0xFE#8) = false := by decide
theorem test_illFormed_decData_term : Instr.wellFormed .termOnly (.decData 0xFF#8) = false := by decide
theorem test_illFormed_encPlain_term : Instr.wellFormed .termOnly (.encPlain 0xFF#8) = false := by decide
theorem test_illFormed_encPlain_esc : Instr.wellFormed .twoSided (.encPlain 0xFE#8) = false := by decide
theorem test_illFormed_encResv_plain : Instr.wellFormed .twoSided (.encResv 0x41#8) = false := by decide
theorem test_illFormed_encResv_esc_termOnly : Instr.wellFormed .termOnly (.encResv 0xFE#8) = false := by decide

/-! ## Encodings written out from 30_encoding.md R71, R72, R77, R78, R90 -/

theorem test_word_decData : decode .twoSided (.dkey 0b0_11111101#9) = .decData 0xFD#8 := by decide
theorem test_word_decEsc : decode .twoSided (.dkey 0b0_11111110#9) = .decEsc := by decide
theorem test_word_decTerm : decode .twoSided (.dkey 0b0_11111111#9) = .decTerm := by decide
theorem test_word_decLit : decode .twoSided (.dkey 0b1_11111110#9) = .decLit 0xFE#8 := by decide
theorem test_word_encPlain : decode .twoSided (.tin 0b0_00100000#9) = .encPlain 0x20#8 := by decide
theorem test_word_encPlain_termOnly : decode .termOnly (.tin 0b0_11111110#9) = .encPlain 0xFE#8 := by decide
theorem test_word_encResv : decode .twoSided (.tin 0b0_11111110#9) = .encResv 0xFE#8 := by decide
theorem test_word_encResv_termOnly : decode .termOnly (.tin 0b0_11111111#9) = .encResv 0xFF#8 := by decide
theorem test_word_encEnd : decode .twoSided (.tin 0b1_10101011#9) = .encEnd 0xAB#8 := by decide
theorem test_action_decClose : decode .twoSided .close = .decClose := by decide
theorem test_action_msgTake : decode .twoSided .take = .msgTake := by decide
theorem test_action_encLit : decode .twoSided .lit = .encLit := by decide
theorem test_action_reset : decode .twoSided .reset = .reset := by decide

/-- Table words without a tag are decode keys (log 10). -/
theorem test_tableWord_key : decodeTableWord 16 0x0FE = some .decEsc := by decide
/-- A table word with the tag of TIN9. -/
theorem test_tableWord_tin : decodeTableWord 16 0x2FF = some (.encResv 0xFF#8) := by decide
/-- A word of no format and a word of no action are refused, by name. -/
theorem test_word_noSuchFormat : symbolOfWord 0xFE00#16 = .error (.noSuchFormat 0x7F#7) := by rfl
theorem test_word_noSuchAction : symbolOfWord 0x0404#16 = .error (.noSuchAction 4#9) := by rfl

/-! ## Single steps -/

/-- DEC-3: the highest plain value. -/
theorem test_decData_first : got (exec (.decData 0xFD#8) s0)
    (fun t => t.dec.decCnt == 1#2 && t.dec.decB[0] == 0xFD#8 && t.decOut == [fbyte 0xFD#8]) = true := by decide
/-- DEC-9, fifth byte: the count saturates and the byte is not stored. -/
theorem test_decData_saturated : got (exec (.decData 0x03#8) (sDec .norm 3#2 #v[0x10#8, 0x00#8, 0x01#8]))
    (fun t => t.dec.decCnt == 3#2 && t.dec.decB == #v[0x10#8, 0x00#8, 0x01#8] && t.decOut == [fbyte 0x03#8]) = true := by
  decide
/-- DEC-4. -/
theorem test_decEsc : got (step (scripted [.act (.rx 0xFE#8)] s0))
    (fun t => t.dec.decMode == .escd && t.dec.decCnt == 0#2 && t.decOut == []) = true := by decide
/-- DEC-5: a terminator value after an escape is a byte. -/
theorem test_decLit_term : got (step (scripted [.act (.rx 0xFF#8)] (sDec .escd 0#2 #v[0, 0, 0])))
    (fun t => t.dec.decMode == .norm && t.dec.decCnt == 1#2 && t.dec.decB[0] == 0xFF#8 && t.dec.cntFrames == 0) = true := by
  decide
/-- DEC-7: an escaped ordinary byte. -/
theorem test_decLit_plain : got (exec (.decLit 0x41#8) (sDec .escd 1#2 #v[0x10#8, 0, 0]))
    (fun t => t.dec.decCnt == 2#2 && t.dec.decB == #v[0x10#8, 0x41#8, 0]) = true := by decide
/-- W1: the value is big-endian. -/
theorem test_decTerm_accept : got (exec .decTerm (sDec .norm 3#2 #v[0x10#8, 0x01#8, 0x2C#8]))
    (fun t => t.dec.msgPend && t.dec.msgAddr == 0x10#8 && t.dec.msgVal == 300#16 && t.dec.cntOk == 1 && t.decOut == [fend])
    = true := by decide
/-- W6: an unknown address. -/
theorem test_decTerm_unknown : got (exec .decTerm (sDec .norm 3#2 #v[0x12#8, 0, 0]))
    (fun t => !t.dec.msgPend && t.dec.cntUnknown == 1 && t.decOut == [fend, .err 2#3 0x12#8]) = true := by decide
/-- INT-1: the length comes before the address. -/
theorem test_decTerm_short : got (exec .decTerm (sDec .norm 1#2 #v[0x12#8, 0, 0]))
    (fun t => t.decOut == [fend, .err 1#3 0x01#8, .flush] && t.dec.cntUnknown == 0) = true := by decide
/-- DEC-14: the frame counter wraps. -/
theorem test_decTerm_wrap : got (exec .decTerm { s0 with dec := { s0.dec with cntFrames := 0xFFFFFFFF#32 } })
    (fun t => t.dec.cntFrames == 0 && t.dec.cntMalformed == 1) = true := by decide
/-- CLS-2: TRUNCATED, length 2. -/
theorem test_decClose_truncated : got (exec .decClose (sDec .norm 2#2 #v[0x10#8, 0x01#8, 0]))
    (fun t => t.decOut == [fabort, .err 1#3 0x42#8, .err 3#3 0x00#8] && t.dec.decCnt == 0#2) = true := by decide
/-- CLS-4: DANGLING_ESC, length three or more. -/
theorem test_decClose_dangling : got (exec .decClose (sDec .escd 3#2 #v[0x10#8, 0, 0x01#8]))
    (fun t => t.decOut == [fabort, .err 1#3 0x83#8, .err 3#3 0x00#8] && t.dec.decMode == .norm) = true := by decide
/-- INT-7. -/
theorem test_msgTake : got (exec .msgTake (sMsg 0x10#8 0x8000#16))
    (fun t => !t.dec.msgPend && t.rxReady && t.decOut == [.msg 0x10#8 0x8000#16]) = true := by decide
/-- INT-8: not a step. -/
theorem test_msgTake_none : got (step (scripted [.act .take] s0)) (fun t => t == s0) = true := by rfl
/-- ENC-3: `0xFE` is plain under `TERM_ONLY`. -/
theorem test_encPlain_termOnly : got (step (scripted [.act (.tin 0x0FE#9)] s0t))
    (fun t => t.txOut == [0xFE#8] && !t.enc.encPendV && t.enc.encBusy) = true := by decide
/-- ENC-2. -/
theorem test_encResv_esc : got (step (scripted [.act (.tin 0x0FE#9)] s0))
    (fun t => t.txOut == [0xFE#8] && t.enc == { encBusy := true, encPendV := true, encPendB := 0xFE#8 }) = true := by decide
/-- ENC-5. -/
theorem test_encLit : got (exec .encLit (sLit 0xFF#8))
    (fun t => t.txOut == [0xFF#8] && !t.enc.encPendV && t.enc.encBusy) = true := by decide
/-- ENC-8: the data bits of an END are ignored. -/
theorem test_encEnd : got (exec (.encEnd 0xAB#8) { s0 with enc := { s0.enc with encBusy := true } })
    (fun t => t.txOut == [0xFF#8] && !t.enc.encBusy) = true := by decide
/-- RST-4: a deferred literal is lost without a byte on `tx`. -/
theorem test_reset : got (exec .reset (sLit 0xFF#8))
    (fun t => t.enc == Enc.reset && t.txOut == [] && t.params == s0.params) = true := by decide
/-- DEC-13: the byte is not consumed. -/
theorem test_rx_held : got (step (scripted [.act (.rx 0x41#8)] (sMsg 0x10#8 0x0001#16)))
    (fun t => t.script == [.act (.rx 0x41#8)] && t.decOut == []) = true := by decide
/-- P5: the encoder runs while a byte is held. -/
theorem test_held_passed : got (step (scripted [.act (.rx 0x11#8), .act (.tin 0x041#9)] (sMsg 0x10#8 0x0001#16)))
    (fun t => t.script == [.act (.rx 0x11#8)] && t.txOut == [0x41#8]) = true := by decide
/-- ENC-9: no step until `tx_ready`. -/
theorem test_tin_txReady : got (step (scripted [.act (.tin 0x041#9)] { s0 with txReady := false }))
    (fun t => t.script == [.act (.tin 0x041#9)] && t.txOut == []) = true := by decide
/-- R177 with R36: no line of `encode [FF]` is lost while `tx_ready` is 0; the first step raises it. -/
theorem test_encode_txReady :
    got (step { scripted (encodeScript .twoSided [0xFF#8] ++ [.txReady true]) s0 with txReady := false })
    (fun t => t.script == encodeScript .twoSided [0xFF#8] && t.txReady && t.txOut == []) = true := by decide
/-- A table word is run by the next step from reset (log 11). -/
theorem test_withFetchWord : got (step (State.reset.withFetchWord 16 0x0FF))
    (fun t => t.decOut == [fend, .err 1#3 0x00#8, .flush] && t.script == []) = true := by decide

/-! ## Reference functions -/

/-- ENC-S6. -/
theorem test_refEncode : refEncode .twoSided [0xFF#8, 0xFE#8, 0xFF#8] =
    [0xFE#8, 0xFF#8, 0xFE#8, 0xFE#8, 0xFE#8, 0xFF#8, 0xFF#8] := by decide
/-- ENC-T4. -/
theorem test_refDecode_termOnly : refDecode (refEncode .termOnly [0xFE#8, 0xFF#8]) = ([[0xFE#8], []], [], .norm) := by
  decide
/-- P1, second frame: `frame [11, FF, FE]`. -/
theorem test_frameScript : frameScript [0x11#8, 0xFF#8, 0xFE#8] =
    rxScript [0x11#8, 0xFE#8, 0xFF#8, 0xFE#8, 0xFE#8, 0xFF#8] := by decide
/-- P3: `send 01, FE, 20` under `TWO_SIDED`. -/
theorem test_sendScript : sendScript .twoSided 0x01#8 [0xFE#8, 0x20#8] =
    [.act (.tin 0b0_00000001#9), .act (.tin 0b0_11111110#9), .act .lit, .act (.tin 0b0_00100000#9),
      .act (.tin 0b1_00000000#9)] := by decide

/-! ## Witnesses: a state and operands that meet the hypotheses of each statement -/

theorem witness_DecDataAppendsTheByte :
    s0.dec.decMode = .norm ∧ s0.dec.msgPend = false ∧ 0xFD#8 ≠ 0xFE#8 ∧ 0xFD#8 ≠ 0xFF#8 := by decide
theorem witness_DecDataAppendsTheByte_full :
    (sDec .norm 3#2 #v[1, 2, 3]).dec.decMode = .norm ∧ (sDec .norm 3#2 #v[1, 2, 3]).dec.msgPend = false := by decide
theorem witness_DecEscOpensAnEscape : s0.dec.decMode = .norm ∧ s0.dec.msgPend = false := by decide
theorem witness_DecLitAppendsAnyByte :
    (sDec .escd 0#2 #v[0, 0, 0]).dec.decMode = .escd ∧ (sDec .escd 0#2 #v[0, 0, 0]).dec.msgPend = false := by decide
theorem witness_DecTermRejectsAShortFrame :
    (sDec .norm 2#2 #v[1, 2, 3]).dec.decMode = .norm ∧ (sDec .norm 2#2 #v[1, 2, 3]).dec.msgPend = false ∧
      (sDec .norm 2#2 #v[1, 2, 3]).dec.decCnt.toNat < 3 := by decide
theorem witness_DecTermRejectsAnUnknownAddress :
    (sDec .norm 3#2 #v[0x12#8, 0, 0]).dec.decMode = .norm ∧ (sDec .norm 3#2 #v[0x12#8, 0, 0]).dec.msgPend = false ∧
      (sDec .norm 3#2 #v[0x12#8, 0, 0]).dec.decCnt = 3#2 ∧
      (sDec .norm 3#2 #v[0x12#8, 0, 0]).dec.decB[0] ∉ (sDec .norm 3#2 #v[0x12#8, 0, 0]).params.addrKeys := by decide
theorem witness_DecTermAcceptsAMessage :
    (sDec .norm 3#2 #v[0xFF#8, 0, 0]).dec.decMode = .norm ∧ (sDec .norm 3#2 #v[0xFF#8, 0, 0]).dec.msgPend = false ∧
      (sDec .norm 3#2 #v[0xFF#8, 0, 0]).dec.decCnt = 3#2 ∧
      (sDec .norm 3#2 #v[0xFF#8, 0, 0]).dec.decB[0] ∈ (sDec .norm 3#2 #v[0xFF#8, 0, 0]).params.addrKeys := by decide
theorem witness_EveryTerminatorEndsTheFrame :
    (s0.dec.decMode = .norm ∧ s0.dec.msgPend = false) ∧ (sDec .escd 1#2 #v[0, 0, 0]).dec.decMode = .escd := by decide
theorem witness_TakeTransfersTheMessage : (sMsg 0x10#8 0x0005#16).dec.msgPend = true := by decide
theorem witness_EncPlainSendsTheByte :
    s0t.enc.encPendV = false ∧ s0t.txReady = true ∧ 0xFE#8 ≠ 0xFF#8 ∧ (0xFE#8 = 0xFE#8 → s0t.params.escMode = .termOnly) := by
  decide
theorem witness_EncPlainSendsTheByte_twoSided :
    s0.enc.encPendV = false ∧ s0.txReady = true ∧ 0xFD#8 ≠ 0xFF#8 ∧ (0xFD#8 = 0xFE#8 → s0.params.escMode = .termOnly) := by
  decide
theorem witness_EncResvSendsTheEscape :
    s0.enc.encPendV = false ∧ s0.txReady = true ∧
      (0xFE#8 = 0xFF#8 ∨ (0xFE#8 = 0xFE#8 ∧ s0.params.escMode = .twoSided)) := by decide
theorem witness_EncLitSendsTheLiteral : (sLit 0xFE#8).enc.encPendV = true ∧ (sLit 0xFE#8).txReady = true := by decide
theorem witness_EncEndSendsTheTerminator : s0.enc.encPendV = false ∧ s0.txReady = true := by decide
theorem witness_DisabledOperationsHold :
    (sMsg 0x10#8 1#16).dec.msgPend = true ∧ (sDec .escd 0#2 #v[0, 0, 0]).dec.decMode = .escd ∧ s0.dec.decMode = .norm ∧
      s0.dec.msgPend = false ∧ (sLit 0xFF#8).enc.encPendV = true ∧ s0.enc.encPendV = false ∧
      resv s0.params.escMode 0xFE#8 = true ∧ resv s0t.params.escMode 0xFE#8 = false := by decide
theorem witness_EscapeAndLiteralAdjacent :
    s0.enc.encPendV = false ∧ s0.txReady = true ∧ resv s0.params.escMode 0xFE#8 = true := by decide
theorem witness_DecodeMapIsTheTable : 0xFD#8 ≠ 0xFE#8 ∧ 0xFD#8 ≠ 0xFF#8 := by decide
theorem witness_EncoderMapIsTheTable : 0x00#8 ≠ 0xFE#8 ∧ 0x00#8 ≠ 0xFF#8 := by decide
theorem witness_DecodeOfEncodeIsTheInstruction : Instr.wellFormed .termOnly (.encPlain 0xFE#8) = true := by decide
theorem witness_StepRunsTheDecodedOperation_rx :
    (scripted [.act (.rx 0xFF#8)] s0).script = .act (.rx 0xFF#8) :: [] ∧ (scripted [.act (.rx 0xFF#8)] s0).dec.msgPend = false := by
  decide
theorem witness_StepRunsTheDecodedOperation_tin :
    (scripted [.act (.tin 0x1FF#9)] s0).script = .act (.tin 0x1FF#9) :: [] ∧
      (scripted [.act (.tin 0x1FF#9)] s0).enc.encPendV = false ∧ (scripted [.act (.tin 0x1FF#9)] s0).txReady = true := by decide
theorem witness_StepRunsTheDecodedOperation_lit :
    (scripted [.act .lit] (sLit 0xFF#8)).script = .act .lit :: [] ∧
      (scripted [.act .lit] (sLit 0xFF#8)).txReady = true := by decide
/-- A literal line with no literal deferred. -/
theorem witness_StepRunsTheDecodedOperation_lit_none :
    (scripted [.act .lit] s0).script = .act .lit :: [] ∧ (scripted [.act .lit] s0).txReady = true := by decide
theorem witness_StepRunsTheDecodedOperation_actions :
    (scripted [.act .close] s0).script = .act .close :: [] ∧ (scripted [.act .take] s0).script = .act .take :: [] ∧
      (scripted [.act .reset] s0).script = .act .reset :: [] := by decide
theorem witness_HeldLinesStayOffered :
    let s := scripted [.act (.rx 0x11#8), .act .take] (sMsg 0x10#8 1#16)
    s.script = [.act (.rx 0x11#8)] ++ .act .take :: [] ∧ (∀ x ∈ [Line.act (.rx 0x11#8)], s.held x = true) ∧
      s.held (.act .take) = false := by decide
theorem witness_NothingChangesWithoutAnEnabledAction :
    ∀ x ∈ (scripted [.act (.rx 0x11#8)] (sMsg 0x10#8 1#16)).script,
      (scripted [.act (.rx 0x11#8)] (sMsg 0x10#8 1#16)).held x = true := by decide
/-- A take and a literal line that are no steps: not held, not enabled. -/
theorem witness_NothingChangesWithoutAnEnabledAction_passed :
    (∀ x ∈ (scripted [.act .take, .act .lit] s0).script, (scripted [.act .take, .act .lit] s0).lineEnabled x = false) ∧
      (scripted [.act .take, .act .lit] s0).held (.act .take) = false := by decide
theorem witness_TxReadyLineSetsTheLevel : (scripted [.txReady false] s0).script = .txReady false :: [] := by decide
/-- For the statements about every step: `step` answers a next state. -/
theorem witness_step : ∃ t, step (scripted [.act (.rx 0x41#8)] s0) = .next t := ⟨_, rfl⟩
theorem witness_step_tin : ∃ t, step (scripted [.act (.tin 0x0FF#9)] s0) = .next t := ⟨_, rfl⟩
theorem witness_step_close : ∃ t, step (scripted [.act .close] s0) = .next t := ⟨_, rfl⟩
theorem witness_WordPlacedIsRunNext : s0.params.escMode = .twoSided ∧ decodeTableWord 16 0x100 = some (.decLit 0x00#8) := by decide
/-- For EveryStepKeepsTheInvariants and BridgeStatesMove: a state that has the invariants with both premises of R39 true. -/
theorem witness_Inv : ({ sMsg 0x10#8 1#16 with enc := (sLit 0xFF#8).enc } : State).Inv :=
  ⟨fun _ => ⟨rfl, rfl⟩, fun _ => rfl, fun _ => rfl⟩
theorem witness_EveryStepKeepsTheInvariants : ∃ t,
    step (scripted [.act (.tin 0x0FF#9)] s0) = .next t ∧ (scripted [.act (.tin 0x0FF#9)] s0).Inv :=
  ⟨_, rfl, nofun, nofun, nofun⟩
theorem witness_CountersAccountForEvents : Instr.decTerm ≠ .reset ∧ ∃ t, exec .decTerm s0 = .next t := ⟨nofun, _, rfl⟩
theorem witness_PendingMessageIsKept_kept :
    Instr.decClose ≠ .msgTake ∧ Instr.decClose ≠ .reset ∧ (sMsg 0x10#8 1#16).dec.msgPend = true ∧
      ∃ t, exec .decClose (sMsg 0x10#8 1#16) = .next t := ⟨nofun, nofun, rfl, _, rfl⟩
theorem witness_PendingMessageIsKept_none :
    Instr.decEsc ≠ .decTerm ∧ s0.dec.msgPend = false ∧ ∃ t, exec .decEsc s0 = .next t := ⟨nofun, rfl, _, rfl⟩
theorem witness_AgentsChangeOnlyThemselves :
    (Instr.decTerm.isDec = true ∧ ∃ t, exec .decTerm s0 = .next t) ∧
      ((Instr.encEnd 0#8).isEnc = true ∧ ∃ t, exec (.encEnd 0#8) s0 = .next t) := ⟨⟨rfl, _, rfl⟩, rfl, _, rfl⟩
/-- Two states that differ in all the statement leaves free. -/
theorem witness_AgentsSeeOnlyThemselves :
    (Instr.decTerm.isDec = true ∧ s0.dec = (sLit 0xFF#8).dec ∧ s0.params = (sLit 0xFF#8).params ∧ s0 ≠ sLit 0xFF#8) ∧
      ((Instr.encEnd 0#8).isEnc = true ∧ s0.enc = (sMsg 0x10#8 1#16).enc ∧ s0.params = (sMsg 0x10#8 1#16).params ∧
        s0.txReady = (sMsg 0x10#8 1#16).txReady ∧ s0 ≠ sMsg 0x10#8 1#16) := by decide
theorem witness_AgentsCommute : Instr.decTerm.isDec = true ∧ (Instr.encEnd 0#8).isEnc = true := by decide
/-- Short frames with different stale bytes. -/
theorem witness_OutcomeDependsOnFirstThreeBytes_short :
    let s₁ := sDec .norm 1#2 #v[0x10#8, 1, 2]
    let s₂ := sDec .norm 1#2 #v[0x10#8, 3, 4]
    s₁.dec.decMode = .norm ∧ s₂.dec.decMode = .norm ∧ s₁.dec.msgPend = false ∧ s₂.dec.msgPend = false ∧
      s₁.dec.decCnt = s₂.dec.decCnt ∧ (∀ i (h : i < 3), i < s₁.dec.decCnt.toNat → s₁.dec.decB[i] = s₂.dec.decB[i]) ∧
      s₁.params.addrKeys = s₂.params.addrKeys ∧ s₁.dec.decB ≠ s₂.dec.decB := by decide
theorem witness_OutcomeDependsOnFirstThreeBytes :
    let s₁ := sDec .norm 3#2 #v[0x10#8, 1, 2]
    let s₂ := { s₁ with decOut := [fbyte 0x33#8], params := { s₁.params with escMode := .termOnly } }
    s₁.dec.decMode = .norm ∧ s₂.dec.decMode = .norm ∧ s₁.dec.msgPend = false ∧ s₂.dec.msgPend = false ∧
      s₁.dec.decCnt = s₂.dec.decCnt ∧ (∀ i (h : i < 3), i < s₁.dec.decCnt.toNat → s₁.dec.decB[i] = s₂.dec.decB[i]) ∧
      s₁.params.addrKeys = s₂.params.addrKeys := by decide
theorem witness_BridgeStatesMove_idle : s0.Inv ∧ s0.bridge = .idle := ⟨⟨nofun, nofun, nofun⟩, rfl⟩
theorem witness_BridgeStatesMove_reading :
    (sDec .norm 1#2 #v[0, 0, 0]).Inv ∧ (sDec .norm 1#2 #v[0, 0, 0]).bridge = .readingFrame ∧
      (sDec .norm 1#2 #v[0, 0, 0]).dec.decMode = .norm ∧ (sDec .norm 1#2 #v[0, 0, 0]).instrOf (.rx 0x00#8) ≠ .decTerm :=
  ⟨⟨nofun, nofun, nofun⟩, rfl, rfl, nofun⟩
theorem witness_BridgeStatesMove_publishing : (sMsg 0x10#8 1#16).Inv ∧ (sMsg 0x10#8 1#16).bridge = .publishing :=
  ⟨⟨fun _ => ⟨rfl, rfl⟩, nofun, nofun⟩, rfl⟩
theorem witness_DecoderRefinesDecode :
    let s := scripted (drainScript [0x10#8, 0xFE#8, 0xFF#8] ++ [.act .close]) s0
    s.dec.decMode = .norm ∧ s.dec.decCnt = 0#2 ∧ s.dec.msgPend = false ∧
      s.script = drainScript [0x10#8, 0xFE#8, 0xFF#8] ++ [.act .close] := by decide
theorem witness_EncoderRefinesEncode :
    let s := scripted (encodeScript .termOnly [0xFE#8, 0xFF#8] ++ [.act .close]) s0t
    s.enc.encPendV = false ∧ s.txReady = true ∧
      s.script = encodeScript s.params.escMode [0xFE#8, 0xFF#8] ++ [.act .close] := by decide
theorem witness_EncoderWaitsForTxReady :
    let s := { scripted (encodeScript .twoSided [0x01#8, 0xFF#8] ++ [.txReady true, .act .close]) s0 with txReady := false }
    s.enc.encPendV = false ∧ s.txReady = false ∧
      s.script = encodeScript s.params.escMode [0x01#8, 0xFF#8] ++ .txReady true :: [.act .close] := by decide
theorem witness_TermOnlyMisdecodings : 0xFE#8 ∉ [0x41#8, 0xFF#8] ∧ 0xFE#8 ∉ ([] : List Byte) ∧ 0xFE#8 ≠ 0xFF#8 := by decide
theorem witness_LoopbackDeliversThePayload :
    let s := scripted (encodeScript .twoSided [0xFE#8, 0xFF#8, 0x00#8]) s0
    s.params.escMode = .twoSided ∧ s.enc.encPendV = false ∧ s.txReady = true ∧ s.dec.decMode = .norm ∧
      s.dec.decCnt = 0#2 ∧ s.dec.msgPend = false ∧ s.txOut = [] ∧
      s.script = encodeScript .twoSided [0xFE#8, 0xFF#8, 0x00#8] := by decide
theorem witness_ParseGivesTheDecodedFrames : (Parse.mk [[.plain 0x10#8, .esc 0xFF#8], []] [.plain 0xFD#8] true).ok = true := by decide
theorem witness_MsgFrameBecomesTheMessage :
    let s := scripted (msgframeScript 0xFF#8 0xFEFF#16 ++ [.act .take]) s0
    s.dec.decMode = .norm ∧ s.dec.decCnt = 0#2 ∧ s.dec.msgPend = false ∧ 0xFF#8 ∈ s.params.addrKeys ∧
      s.script = msgframeScript 0xFF#8 0xFEFF#16 ++ [.act .take] := by decide

end Sys2Proof.Machine.Tests
end

section
/-! SUPPORT. The address table as a key list (00_scope.md R8). -/

namespace Sys2Proof.Machine

/-- Every byte, in numerical order. -/
def allBytes : List Byte := (List.range 256).map (BitVec.ofNat 8)

theorem mem_allBytes (a : Byte) : a ∈ allBytes :=
  List.mem_map.mpr ⟨a.toNat, List.mem_range.mpr a.isLt, by simp⟩

/-- The key list of the table that holds the bytes on which `f` is true. -/
def keysOf (f : Byte → Bool) : List Byte := allBytes.filter f

theorem mem_keysOf (f : Byte → Bool) (a : Byte) : a ∈ keysOf f ↔ f a = true := by
  simp [keysOf, mem_allBytes]

/-- The lookup of a parameter set with the key list of `f` is `f`, whatever its escaping mode. -/
theorem addrValid_keysOf (m : EscMode) (f : Byte → Bool) (a : Byte) :
    addrValid { escMode := m, addrKeys := keysOf f } a = f a :=
  Bool.eq_iff_iff.mpr ((addrValid_iff _ a).trans (mem_keysOf f a))

end Sys2Proof.Machine

namespace Sys2Proof.Proofs

open Machine

/-- Settles O43: the bytes are finitely many, so those on which the function is true are a key list. -/
theorem everyAddressTableIsModelled : Obligations.EveryAddressTableIsModelled :=
  fun f => ⟨keysOf f, fun m a => addrValid_keysOf m f a⟩

end Sys2Proof.Proofs
end

section
/-! SUPPORT. Every operation as one conditional step: the condition of its row of the opcode table, and its effect
where the condition holds (R100, R146, R36; log 4). -/

namespace Sys2Proof.Machine

/-- The condition of an operation in spec/opcode_table.json: the handshakes and the mode, and for an operand that a
row does not have, its range. -/
def State.opEnabled (s : State) : Instr → Bool
  | .decData b => s.byteEnabled .norm && isPlain b
  | .decEsc => s.byteEnabled .norm
  | .decTerm => s.byteEnabled .norm
  | .decLit _ => s.byteEnabled .escd
  | .decClose => true
  | .msgTake => s.takeEnabled
  | .encPlain d => s.tinEnabled && !resv s.params.escMode d
  | .encResv d => s.tinEnabled && resv s.params.escMode d
  | .encLit => s.litEnabled
  | .encEnd _ => s.tinEnabled
  | .reset => true

/-- Where an enabled operation leads. -/
def State.opEffect (s : State) : Instr → State
  | .decData b => s.append b
  | .decEsc => s.withDec { s.dec with decMode := .escd }
  | .decTerm => s.endFrame
  | .decLit b => (s.append b).withDec { (s.append b).dec with decMode := .norm }
  | .decClose =>
    let t := s.abortFrame.raise .transportClosed 0x00#8
    t.withDec t.dec.idle
  | .msgTake => (s.withDec { s.dec with msgPend := false }).emit (.msg s.dec.msgAddr s.dec.msgVal)
  | .encPlain d => (s.withEnc { s.enc with encBusy := true }).sendTx d
  | .encResv d => (s.withEnc { encBusy := true, encPendV := true, encPendB := d }).sendTx Config.ESC
  | .encLit => (s.withEnc { s.enc with encPendV := false }).sendTx s.enc.encPendB
  | .encEnd _ => (s.withEnc { s.enc with encBusy := false }).sendTx Config.TERM
  | .reset => (s.withDec Dec.reset).withEnc Enc.reset

/-- What `exec` does, said once for all operations. -/
theorem exec_eq_stepIf (i : Instr) (s : State) : exec i s = stepIf (s.opEnabled i) (s.opEffect i) s := by
  cases i <;> rfl

theorem exec_of_opEnabled {i : Instr} {s : State} (h : s.opEnabled i = true) : exec i s = .next (s.opEffect i) := by
  rw [exec_eq_stepIf, h, stepIf_true]

theorem exec_of_not_opEnabled {i : Instr} {s : State} (h : s.opEnabled i = false) : exec i s = .next s := by
  rw [exec_eq_stepIf, h, stepIf_false]

variable (s : State)

theorem State.byteEnabled_norm_eq_false_iff :
    s.byteEnabled .norm = false ↔ s.dec.msgPend = true ∨ s.dec.decMode = .escd := by
  cases hm : s.dec.decMode <;> simp [State.byteEnabled, State.rxReady, hm]

theorem State.byteEnabled_escd_eq_false_iff :
    s.byteEnabled .escd = false ↔ s.dec.msgPend = true ∨ s.dec.decMode = .norm := by
  cases hm : s.dec.decMode <;> simp [State.byteEnabled, State.rxReady, hm]

theorem State.tinEnabled_eq_false_iff :
    s.tinEnabled = false ↔ s.enc.encPendV = true ∨ s.txReady = false := by
  rw [State.tinEnabled, State.tinReady, Bool.and_eq_false_iff, Bool.not_eq_false']

theorem State.litEnabled_eq_false_iff :
    s.litEnabled = false ↔ s.enc.encPendV = false ∨ s.txReady = false := by
  rw [State.litEnabled, Bool.and_eq_false_iff]

theorem isPlain_eq_false_iff (b : Byte) : isPlain b = false ↔ b = 0xFE#8 ∨ b = 0xFF#8 := by
  rw [isPlain, Bool.and_eq_false_iff, bne_eq_false_iff_eq, bne_eq_false_iff_eq, Config.ESC, Config.TERM]

end Sys2Proof.Machine

namespace Sys2Proof.Proofs

open Machine

/-- Settles O16: each disjunct of a row falsifies a conjunct of its condition, and `exec` is one conditional step
(log 4). -/
theorem disabledOperationsHold : Obligations.DisabledOperationsHold := by
  refine ⟨fun s b h => ?data, fun s h => ?escTerm, fun s b h => ?lit, fun s h => ?take,
    fun s d h => ?plain, fun s d h => ?resv, fun s x h => ?fin, fun s h => ?encLit⟩
  case data =>
    refine exec_of_not_opEnabled (Bool.and_eq_false_iff.mpr ?_)
    rw [s.byteEnabled_norm_eq_false_iff, isPlain_eq_false_iff]
    exact or_assoc.mpr h
  case escTerm =>
    have hb : s.byteEnabled .norm = false := s.byteEnabled_norm_eq_false_iff.mpr h
    exact ⟨exec_of_not_opEnabled hb, exec_of_not_opEnabled hb⟩
  case lit => exact exec_of_not_opEnabled (s.byteEnabled_escd_eq_false_iff.mpr h)
  case take => exact exec_of_not_opEnabled h
  case plain =>
    refine exec_of_not_opEnabled (Bool.and_eq_false_iff.mpr ?_)
    rw [s.tinEnabled_eq_false_iff, Bool.not_eq_false']
    exact or_assoc.mpr h
  case resv =>
    refine exec_of_not_opEnabled (Bool.and_eq_false_iff.mpr ?_)
    rw [s.tinEnabled_eq_false_iff]
    exact or_assoc.mpr h
  case fin => exact exec_of_not_opEnabled (s.tinEnabled_eq_false_iff.mpr h)
  case encLit => exact exec_of_not_opEnabled (s.litEnabled_eq_false_iff.mpr h)

end Sys2Proof.Proofs
end

section
/-! SUPPORT. What each operation leaves unchanged (R176, R31), and the conditions of the opcode table as facts about
the state. -/

namespace Sys2Proof.Machine

variable {s t : State} {i : Instr}

/-- An operation answers its effect where its condition holds and the state as it was elsewhere (log 4). -/
theorem exec_cases (h : exec i s = .next t) :
    (s.opEnabled i = true ∧ t = s.opEffect i) ∨ (s.opEnabled i = false ∧ t = s) :=
  stepIf_cases ((exec_eq_stepIf i s).symm.trans h)

theorem State.byteEnabled_iff (m : DecMode) (s : State) :
    s.byteEnabled m = true ↔ s.dec.msgPend = false ∧ s.dec.decMode = m := by
  simp [State.byteEnabled, State.rxReady]

theorem State.tinEnabled_iff (s : State) :
    s.tinEnabled = true ↔ s.enc.encPendV = false ∧ s.txReady = true := by
  simp [State.tinEnabled, State.tinReady]

/-- `Append` writes `dec_cnt` and `dec_b` and emits the byte (R102). -/
theorem State.append_eq (b : Byte) (s : State) :
    s.append b =
      { s with
        dec := { s.dec with decCnt := satInc s.dec.decCnt, decB := (s.dec.store b).decB }
        decOut := s.decOut ++ [fbyte b] } := by
  rw [State.append, Dec.append, Dec.store_frame]
  rfl

/-- An operation of DEC writes DEC's elements and events only (R176). -/
theorem opEffect_dec_frame (h : i.isDec = true) (s : State) :
    s.opEffect i = { s with dec := (s.opEffect i).dec, decOut := (s.opEffect i).decOut } := by
  cases i <;> try contradiction
  case decTerm =>
    rw [State.opEffect]
    rcases endFrame_cases s with ⟨-, he⟩ | ⟨-, -, he⟩ | ⟨-, -, he⟩ <;> rw [he]
  case decClose =>
    rw [State.opEffect]
    rcases abortFrame_cases s with ⟨-, he⟩ | ⟨-, -, he⟩ | ⟨-, -, he⟩ <;> rw [he] <;> rfl
  all_goals rfl

/-- An operation of ENC writes ENC's elements and bytes only (R176). -/
theorem opEffect_enc_frame (h : i.isEnc = true) (s : State) :
    s.opEffect i = { s with enc := (s.opEffect i).enc, txOut := (s.opEffect i).txOut } := by
  cases i <;> try contradiction
  all_goals rfl

/-- Every operation is of one agent, or is RESET (00_scope.md R5). -/
theorem isDec_or_isEnc_or_eq_reset (i : Instr) : i.isDec = true ∨ i.isEnc = true ∨ i = .reset := by
  cases i <;> simp [Instr.isDec, Instr.isEnc]

/-- No operation writes the parameters, the script or the level of `tx_ready`. -/
theorem opEffect_frame (i : Instr) (s : State) :
    s.opEffect i =
      { s with
        dec := (s.opEffect i).dec, decOut := (s.opEffect i).decOut
        enc := (s.opEffect i).enc, txOut := (s.opEffect i).txOut } := by
  rcases isDec_or_isEnc_or_eq_reset i with h | h | rfl
  · rw [opEffect_dec_frame h]
  · rw [opEffect_enc_frame h]
  · rfl

theorem exec_params (h : exec i s = .next t) : t.params = s.params := by
  rcases exec_cases h with ⟨-, rfl⟩ | ⟨-, rfl⟩
  · rw [opEffect_frame]
  · rfl

theorem exec_script (h : exec i s = .next t) : t.script = s.script := by
  rcases exec_cases h with ⟨-, rfl⟩ | ⟨-, rfl⟩
  · rw [opEffect_frame]
  · rfl

end Sys2Proof.Machine
end

section
/-! SUPPORT. What a step can do, said once: nothing, or it carries out the first line of the script that is not held. -/

namespace Sys2Proof.Machine

variable {s t : State}

/-- The line picked is the first that is not held, and the lines around it stay in order (log 2). -/
theorem State.pick_eq_some {script more : List Line} {l : Line} (h : s.pick script = some (l, more)) :
    ∃ front rest, script = front ++ l :: rest ∧ more = front ++ rest ∧
      (∀ x ∈ front, s.held x = true) ∧ s.held l = false := by
  induction script generalizing more with
  | nil => simp [State.pick] at h
  | cons x xs ih =>
    rw [State.pick] at h
    cases hx : s.held x with
    | false =>
      obtain ⟨rfl, rfl⟩ : x = l ∧ xs = more := by simpa [hx] using h
      exact ⟨[], xs, rfl, rfl, nofun, hx⟩
    | true =>
      cases hp : s.pick xs with
      | none => simp [hx, hp] at h
      | some p =>
        obtain ⟨y, ys⟩ := p
        obtain ⟨rfl, rfl⟩ : y = l ∧ x :: ys = more := by simpa [hx, hp] using h
        obtain ⟨front, rest, rfl, rfl, hfront, hl⟩ := ih hp
        exact ⟨x :: front, rest, rfl, rfl, List.forall_mem_cons.mpr ⟨hx, hfront⟩, hl⟩

/-- The inversion of `step`. -/
theorem step_cases (h : step s = .next t) :
    t = s ∨ ∃ front l rest, s.script = front ++ l :: rest ∧ (∀ x ∈ front, s.held x = true) ∧
      s.held l = false ∧ runLine l (s.withScript (front ++ rest)) = .next t := by
  rw [step, State.stepOnce] at h
  cases hf : s.fetch with
  | none =>
    rw [hf] at h
    exact .inl (Host.Outcome.next.inj h).symm
  | some p =>
    obtain ⟨l, more⟩ := p
    rw [hf] at h
    obtain ⟨front, rest, hs, rfl, hfront, hl⟩ := State.pick_eq_some hf
    exact .inr ⟨front, l, rest, hs, hfront, hl, h⟩

/-- A first line that is not held is carried out. -/
theorem step_of_not_held {l : Line} {rest : List Line} (hs : s.script = l :: rest) (hl : s.held l = false) :
    step s = runLine l (s.withScript rest) := by
  simp [step, State.stepOnce, State.fetch, hs, State.pick, hl]

theorem runLine_params {l : Line} (h : runLine l s = .next t) : t.params = s.params := by
  cases l with
  | act a => exact exec_params h
  | txReady v => cases h; rfl

theorem runLine_script {l : Line} (h : runLine l s = .next t) : t.script = s.script := by
  cases l with
  | act a => exact exec_script h
  | txReady v => cases h; rfl

end Sys2Proof.Machine

namespace Sys2Proof.Proofs

open Machine

/-- Settles O24: in each clause the first line is not held, and carrying it out is `exec` of what its symbol
decodes to. -/
theorem stepRunsTheDecodedOperation : Obligations.StepRunsTheDecodedOperation := by
  refine fun s rest => ⟨fun b hs hp => ?rx, fun y hs hp hr => ?tin, fun hs hr => ?lit,
    fun hs => ?close, fun hs => ?take, fun hs => ?reset⟩
  case rx => exact step_of_not_held hs (by simp [State.held, State.rxReady, hp])
  case tin => exact step_of_not_held hs (by simp [State.held, State.tinEnabled, State.tinReady, hp, hr])
  case lit => exact step_of_not_held hs (by simp [State.held, hr])
  case close => exact step_of_not_held hs rfl
  case take => exact step_of_not_held hs rfl
  case reset => exact step_of_not_held hs rfl

/-- Settles O27: the line is never held, and carrying it out sets the level (log 9). -/
theorem txReadyLineSetsTheLevel : Obligations.TxReadyLineSetsTheLevel :=
  fun _ _ _ hs => step_of_not_held hs rfl

/-- Settles O34: a step changes nothing or carries out one line, and no line writes the parameters. -/
theorem noStepChangesAParameter : Obligations.NoStepChangesAParameter := by
  intro s t h
  rcases step_cases h with rfl | ⟨front, l, rest, -, -, -, hrun⟩
  · rfl
  · exact (runLine_params hrun).trans (State.withScript_params s _)

end Sys2Proof.Proofs
end

section
/-! SUPPORT. The pending message under the operations (R26, R27): DEC_TERM may make one, MSG_TAKE and RESET end it, and
every other operation leaves it. -/

namespace Sys2Proof.Machine

/-- The message registers stand under every operation but DEC_TERM, MSG_TAKE and RESET. -/
theorem opEffect_msg {i : Instr} (hterm : i ≠ .decTerm) (htake : i ≠ .msgTake) (hreset : i ≠ .reset) (s : State) :
    (s.opEffect i).dec.msgPend = s.dec.msgPend ∧ (s.opEffect i).dec.msgAddr = s.dec.msgAddr ∧
      (s.opEffect i).dec.msgVal = s.dec.msgVal := by
  cases i <;> try contradiction
  case decData b => rw [State.opEffect, State.append_eq]; exact ⟨rfl, rfl, rfl⟩
  case decLit b => rw [State.opEffect, State.append_eq]; exact ⟨rfl, rfl, rfl⟩
  case decClose =>
    rw [State.opEffect]
    rcases abortFrame_cases s with ⟨-, he⟩ | ⟨-, -, he⟩ | ⟨-, -, he⟩ <;> rw [he] <;> exact ⟨rfl, rfl, rfl⟩
  all_goals exact ⟨rfl, rfl, rfl⟩

end Sys2Proof.Machine

namespace Sys2Proof.Proofs

open Machine

/-- Settles O37: a pending message disables DEC_TERM, and the operations that are left keep the registers; MSG_TAKE and
RESET leave `msg_pend` 0. -/
theorem pendingMessageIsKept : Obligations.PendingMessageIsKept := by
  refine ⟨fun i s t htake hreset hp h => ?kept, fun i s t hterm hp h => ?none⟩
  case kept =>
    rcases exec_cases h with ⟨hen, rfl⟩ | ⟨-, rfl⟩
    · have hterm : i ≠ .decTerm := by
        rintro rfl
        have hp' : s.dec.msgPend = false := ((s.byteEnabled_iff .norm).mp hen).1
        simp [hp] at hp'
      obtain ⟨hpend, haddr, hval⟩ := opEffect_msg hterm htake hreset s
      exact ⟨hpend.trans hp, haddr, hval⟩
    · exact ⟨hp, rfl, rfl⟩
  case none =>
    rcases exec_cases h with ⟨-, rfl⟩ | ⟨-, rfl⟩
    · by_cases htake : i = .msgTake
      · subst htake; rfl
      by_cases hreset : i = .reset
      · subst hreset; rfl
      exact (opEffect_msg hterm htake hreset s).1.trans hp
    · exact hp

end Sys2Proof.Proofs
end

section
/-! SUPPORT. The invariants of R39, operation by operation: (a) is about DEC, (b) and (c) are about ENC. -/

namespace Sys2Proof.Machine

variable {s t : State} {i : Instr}

/-- The end of a frame leaves no frame in flight (R105). -/
theorem endFrame_idle (s : State) :
    s.endFrame.dec.decMode = s.dec.decMode ∧ s.endFrame.dec.decCnt = 0#2 := by
  rcases endFrame_cases s with ⟨-, he⟩ | ⟨-, -, he⟩ | ⟨-, -, he⟩ <;> rw [he] <;> exact ⟨rfl, rfl⟩

/-- A byte that does not end the frame is received with no message pending, and makes none. -/
theorem not_msgPend_of_byteEnabled {m : DecMode} (hterm : i ≠ .decTerm) (htake : i ≠ .msgTake)
    (hreset : i ≠ .reset) (h : s.byteEnabled m = true) : ¬(s.opEffect i).dec.msgPend = true := by
  rw [(opEffect_msg hterm htake hreset s).1, ((s.byteEnabled_iff m).mp h).1]
  decide

/-- R39 (a): only DEC_TERM makes a message pending, and it ends the frame. -/
theorem opEffect_pend_idle (hinv : s.Inv) (hen : s.opEnabled i = true)
    (hp : (s.opEffect i).dec.msgPend = true) :
    (s.opEffect i).dec.decMode = .norm ∧ (s.opEffect i).dec.decCnt = 0#2 := by
  cases i with
  | decData b => exact absurd hp (not_msgPend_of_byteEnabled nofun nofun nofun (Bool.and_eq_true_iff.mp hen).1)
  | decEsc => exact absurd hp (not_msgPend_of_byteEnabled nofun nofun nofun hen)
  | decLit b => exact absurd hp (not_msgPend_of_byteEnabled nofun nofun nofun hen)
  | decTerm =>
    obtain ⟨hmode, hcnt⟩ := endFrame_idle s
    exact ⟨hmode.trans ((s.byteEnabled_iff .norm).mp hen).2, hcnt⟩
  | decClose => exact ⟨rfl, rfl⟩
  | msgTake => nomatch hp
  | reset => exact ⟨rfl, rfl⟩
  | encPlain d => exact hinv.pend_idle hp
  | encResv d => exact hinv.pend_idle hp
  | encLit => exact hinv.pend_idle hp
  | encEnd x => exact hinv.pend_idle hp

/-- R39 (b), (c): only ENC_RESV defers a literal, a reserved byte of a payload it marks under way. -/
theorem opEffect_lit (hinv : s.Inv) (hen : s.opEnabled i = true) (hp : (s.opEffect i).enc.encPendV = true) :
    (s.opEffect i).enc.encBusy = true ∧ resv s.params.escMode (s.opEffect i).enc.encPendB = true := by
  rcases isDec_or_isEnc_or_eq_reset i with hdec | henc | rfl
  · have hsame : (s.opEffect i).enc = s.enc := by rw [opEffect_dec_frame hdec]
    rw [hsame] at hp ⊢
    exact ⟨hinv.lit_busy hp, hinv.lit_resv hp⟩
  · cases i <;> try contradiction
    case encPlain d =>
      have hnone : s.enc.encPendV = false := (s.tinEnabled_iff.mp (Bool.and_eq_true_iff.mp hen).1).1
      exact absurd hp (by simp [State.opEffect, hnone])
    case encResv d => exact ⟨rfl, (Bool.and_eq_true_iff.mp hen).2⟩
    case encEnd x =>
      have hnone : s.enc.encPendV = false := (s.tinEnabled_iff.mp hen).1
      exact absurd hp (by simp [State.opEffect, hnone])
  · nomatch hp

/-- Every operation keeps the invariants. -/
theorem exec_inv (hinv : s.Inv) (h : exec i s = .next t) : t.Inv := by
  have hparams : t.params = s.params := exec_params h
  rcases exec_cases h with ⟨hen, rfl⟩ | ⟨-, rfl⟩
  · exact
      { pend_idle := opEffect_pend_idle hinv hen
        lit_busy := fun hp => (opEffect_lit hinv hen hp).1
        lit_resv := fun hp => hparams ▸ (opEffect_lit hinv hen hp).2 }
  · exact hinv

/-- The invariants do not speak of the script. -/
theorem State.Inv.withScript (hinv : s.Inv) (l : List Line) : (s.withScript l).Inv :=
  ⟨hinv.pend_idle, hinv.lit_busy, hinv.lit_resv⟩

theorem runLine_inv {l : Line} (hinv : s.Inv) (h : runLine l s = .next t) : t.Inv := by
  cases l with
  | act a => exact exec_inv hinv h
  | txReady v =>
    cases h
    exact ⟨hinv.pend_idle, hinv.lit_busy, hinv.lit_resv⟩

end Sys2Proof.Machine

namespace Sys2Proof.Proofs

open Machine

/-- Settles O32: at reset neither a message nor a literal is pending. -/
theorem invariantsHoldAtReset : Obligations.InvariantsHoldAtReset := ⟨nofun, nofun, nofun⟩

/-- Settles O33: a step changes nothing or carries out one line, and every line keeps the invariants. -/
theorem everyStepKeepsTheInvariants : Obligations.EveryStepKeepsTheInvariants := by
  intro s t hinv h
  rcases step_cases h with rfl | ⟨front, l, rest, -, -, -, hrun⟩
  · exact hinv
  · exact runLine_inv (hinv.withScript _) hrun

end Sys2Proof.Proofs
end

section
/-! SUPPORT. The symbols a script offers on `tin` and the byte a symbol emits (R36, R51). -/

namespace Sys2Proof.Machine

variable {s t : State}

theorem tinSyms_append (l₁ l₂ : List Line) : tinSyms (l₁ ++ l₂) = tinSyms l₁ ++ tinSyms l₂ :=
  List.filterMap_append

@[simp] theorem tinSyms_cons_tin (y : Sym9) (l : List Line) :
    tinSyms (.act (.tin y) :: l) = y :: tinSyms l := rfl

/-- A line that is not a `tin` line offers no symbol. -/
theorem tinSyms_cons_of_ne {x : Line} (hx : ∀ y : Sym9, x ≠ .act (.tin y)) (l : List Line) :
    tinSyms (x :: l) = tinSyms l := by
  rcases x with (b | _ | _ | y | _ | _) | v
  case act.tin => exact absurd rfl (hx y)
  all_goals rfl

/-- While a symbol can be taken no `tin` line is held, so held lines offer none. -/
theorem tinSyms_of_held (hen : s.tinEnabled = true) {front : List Line} (h : ∀ x ∈ front, s.held x = true) :
    tinSyms front = [] := by
  induction front with
  | nil => rfl
  | cons x xs ih =>
    obtain ⟨hx, hxs⟩ := List.forall_mem_cons.mp h
    have hne : ∀ y : Sym9, x ≠ .act (.tin y) := by
      rintro y rfl
      simp [State.held, hen] at hx
    exact (tinSyms_cons_of_ne hne xs).trans (ih hxs)

/-- A symbol taken emits exactly one byte: `TERM` at the end, `ESC` for a reserved byte, else the byte itself. -/
theorem exec_tin_emits_one (y : Sym9) (hen : s.tinEnabled = true)
    (h : exec (decode s.params.escMode (.tin y)) s = .next t) : ∃ b, t.txOut = s.txOut ++ [b] := by
  rw [decode, decodeTin] at h
  split at h
  case isTrue =>
    rw [exec_of_opEnabled (by simpa [State.opEnabled] using hen)] at h
    cases h
    exact ⟨_, rfl⟩
  case isFalse =>
    split at h
    case isTrue hresv =>
      rw [exec_of_opEnabled (by simp [State.opEnabled, hen, hresv])] at h
      cases h
      exact ⟨_, rfl⟩
    case isFalse hresv =>
      rw [exec_of_opEnabled (by simp [State.opEnabled, hen, hresv])] at h
      cases h
      exact ⟨_, rfl⟩

end Sys2Proof.Machine

namespace Sys2Proof.Proofs

open Machine

/-- Settles O29: a line that is no `tin` line leaves the symbols, and a `tin` line that is carried out is the first of
its kind, since with both handshakes no `tin` line is held. -/
theorem payloadSymbolsTakenOnceInOrder : Obligations.PayloadSymbolsTakenOnceInOrder := by
  intro s t h
  rcases step_cases h with rfl | ⟨front, l, rest, hs, hfront, hl, hrun⟩
  · exact .inl ⟨rfl, .inl rfl⟩
  have hscript : t.script = front ++ rest := runLine_script hrun
  by_cases htin : ∃ y : Sym9, l = .act (.tin y)
  · obtain ⟨y, rfl⟩ := htin
    have hen : s.tinEnabled = true := by simpa [State.held] using hl
    obtain ⟨hlit, htx⟩ := s.tinEnabled_iff.mp hen
    refine .inr ⟨y, ?_, by simp [State.tinReady, hlit], htx, ?_, ?_⟩
    · simp [hs, hscript, tinSyms_append, tinSyms_of_held hen hfront]
    · exact exec_tin_emits_one (s := s.withScript (front ++ rest)) y hen hrun
    · rw [hscript]
      exact hrun
  · have hne : ∀ y : Sym9, l ≠ .act (.tin y) := not_exists.mp htin
    refine .inl ⟨?_, .inr ⟨front, l, rest, hs, hne, hrun⟩⟩
    rw [hscript, hs, tinSyms_append, tinSyms_append, tinSyms_cons_of_ne hne]

end Sys2Proof.Proofs
end

section
/-! SUPPORT. The counters and the events (R28, R205, R147): a relation between DEC's elements before and after an
operation and the events it emits, kept operation by operation. -/

namespace Sys2Proof.Machine

/-- The events `evs` account for the counters of DEC from `d` to `d'`, modulo 2^32. -/
def Accounts (evs : List DecEvent) (d d' : Dec) : Prop :=
  d'.cntFrames = d.cntFrames + BitVec.ofNat 32 (evs.count fend) ∧
  d'.cntMalformed = d.cntMalformed + BitVec.ofNat 32 (evs.countP (DecEvent.isErr .malformedFrame)) ∧
  d'.cntUnknown = d.cntUnknown + BitVec.ofNat 32 (evs.countP (DecEvent.isErr .unknownAddress)) ∧
  BitVec.ofNat 32 (evs.countP DecEvent.isMsg + d'.msgPend.toNat) + d.cntOk =
    BitVec.ofNat 32 d.msgPend.toNat + d'.cntOk

variable {s : State}

/-- No event accounts for counters and a `msg_pend` that stand. -/
theorem accounts_nil {d d' : Dec} (hframes : d'.cntFrames = d.cntFrames) (hmal : d'.cntMalformed = d.cntMalformed)
    (hunk : d'.cntUnknown = d.cntUnknown) (hok : d'.cntOk = d.cntOk) (hpend : d'.msgPend = d.msgPend) :
    Accounts [] d d' := by
  simp [Accounts, hframes, hmal, hunk, hok, hpend]

/-- DEC_TERM: one FEND, and an error of its condition or a message that becomes pending. -/
theorem endFrame_accounts (hp : s.dec.msgPend = false) :
    ∃ evs, s.endFrame.decOut = s.decOut ++ evs ∧ Accounts evs s.dec s.endFrame.dec := by
  rcases endFrame_cases s with ⟨-, he⟩ | ⟨-, -, he⟩ | ⟨-, -, he⟩ <;> rw [he] <;> refine ⟨_, rfl, ?_⟩
  all_goals simp [Accounts, hp, BitVec.add_comm, fend, DecEvent.isErr, DecEvent.isMsg, ErrCond.code]

/-- Aborting the frame in flight counts the MalformedFrame it raises. -/
theorem abortFrame_accounts (s : State) :
    ∃ evs, s.abortFrame.decOut = s.decOut ++ evs ∧ Accounts evs s.dec s.abortFrame.dec := by
  rcases abortFrame_cases s with ⟨-, he⟩ | ⟨-, -, he⟩ | ⟨-, -, he⟩ <;> rw [he]
  case inr.inr => exact ⟨[], (List.append_nil _).symm, accounts_nil rfl rfl rfl rfl rfl⟩
  all_goals
    refine ⟨_, rfl, ?_⟩
    simp [Accounts, fabort, fend, DecEvent.isErr, DecEvent.isMsg, ErrCond.code]

/-- An event that is no FEND, no counted error and no message may be added to an account. -/
theorem Accounts.append_uncounted {evs : List DecEvent} {d d' : Dec} (h : Accounts evs d d') {e : DecEvent}
    (hfend : e ≠ fend) (hmal : e.isErr .malformedFrame = false) (hunk : e.isErr .unknownAddress = false)
    (hmsg : e.isMsg = false) : Accounts (evs ++ [e]) d d' := by
  simpa [Accounts, hfend, hmal, hunk, hmsg] using h

/-- Where its condition holds every operation but RESET emits events that account for its counters. -/
theorem opEffect_accounts {i : Instr} (hreset : i ≠ .reset) (hen : s.opEnabled i = true) :
    ∃ evs, (s.opEffect i).decOut = s.decOut ++ evs ∧ Accounts evs s.dec (s.opEffect i).dec := by
  cases i with
  | decData b =>
    rw [State.opEffect, State.append_eq]
    exact ⟨_, rfl, (accounts_nil rfl rfl rfl rfl rfl).append_uncounted nofun rfl rfl rfl⟩
  | decLit b =>
    rw [State.opEffect, State.append_eq]
    exact ⟨_, rfl, (accounts_nil rfl rfl rfl rfl rfl).append_uncounted nofun rfl rfl rfl⟩
  | decEsc => exact ⟨[], (List.append_nil _).symm, accounts_nil rfl rfl rfl rfl rfl⟩
  | decTerm => exact endFrame_accounts ((s.byteEnabled_iff .norm).mp hen).1
  | decClose =>
    obtain ⟨evs, hout, h⟩ := abortFrame_accounts s
    refine ⟨evs ++ [.err ErrCond.transportClosed.code 0x00#8], ?_, ?_⟩
    · rw [← List.append_assoc, ← hout]
      rfl
    · exact h.append_uncounted nofun rfl rfl rfl
  | msgTake =>
    have hp : s.dec.msgPend = true := hen
    refine ⟨_, rfl, ?_⟩
    simp [Accounts, State.opEffect, hp, fend, DecEvent.isErr, DecEvent.isMsg]
  | reset => exact absurd rfl hreset
  | encPlain d => exact ⟨[], (List.append_nil _).symm, accounts_nil rfl rfl rfl rfl rfl⟩
  | encResv d => exact ⟨[], (List.append_nil _).symm, accounts_nil rfl rfl rfl rfl rfl⟩
  | encLit => exact ⟨[], (List.append_nil _).symm, accounts_nil rfl rfl rfl rfl rfl⟩
  | encEnd x => exact ⟨[], (List.append_nil _).symm, accounts_nil rfl rfl rfl rfl rfl⟩

end Sys2Proof.Machine

namespace Sys2Proof.Proofs

open Machine

/-- Settles O36: an operation whose condition holds emits events that account for its counters, and one whose condition
is false emits none and counts none. -/
theorem countersAccountForEvents : Obligations.CountersAccountForEvents := by
  intro i s t hreset h
  rcases exec_cases h with ⟨hen, rfl⟩ | ⟨-, rfl⟩
  · exact opEffect_accounts hreset hen
  · exact ⟨[], (List.append_nil _).symm, accounts_nil rfl rfl rfl rfl rfl⟩

end Sys2Proof.Proofs
end

section
/-! SUPPORT. The derived bridge states (R37) as facts about DEC's elements, and where a received byte leads. -/

namespace Sys2Proof.Machine

variable {s : State}

theorem State.frameInFlight_iff (s : State) :
    s.frameInFlight = true ↔ s.dec.decMode = .escd ∨ s.dec.decCnt ≠ 0#2 := by
  simp [State.frameInFlight, or_comm]

theorem State.not_frameInFlight_iff (s : State) :
    ¬s.frameInFlight = true ↔ s.dec.decMode = .norm ∧ s.dec.decCnt = 0#2 := by
  cases hm : s.dec.decMode <;> simp [State.frameInFlight, hm]

theorem State.bridge_eq_idle_iff (s : State) :
    s.bridge = .idle ↔ s.dec.msgPend = false ∧ s.dec.decMode = .norm ∧ s.dec.decCnt = 0#2 := by
  rw [← s.not_frameInFlight_iff, State.bridge]
  split_ifs with hp hf <;> simp_all

theorem State.bridge_eq_readingFrame_iff (s : State) :
    s.bridge = .readingFrame ↔ s.dec.msgPend = false ∧ (s.dec.decMode = .escd ∨ s.dec.decCnt ≠ 0#2) := by
  rw [← s.frameInFlight_iff, State.bridge]
  split_ifs with hp hf <;> simp_all

theorem State.bridge_eq_publishing_iff (s : State) : s.bridge = .publishing ↔ s.dec.msgPend = true := by
  rw [State.bridge]
  split_ifs with hp hf <;> simp [hp]

/-- A byte received after an escape is literal (R72). -/
theorem State.instrOf_rx_of_escd (hm : s.dec.decMode = .escd) (b : Byte) : s.instrOf (.rx b) = .decLit b := by
  simp [State.instrOf, State.symbolOf, hm, DecMode.bit, decode, decodeKey]

/-- A byte received with no escape open (R72). -/
theorem State.instrOf_rx_of_norm (hm : s.dec.decMode = .norm) (b : Byte) :
    s.instrOf (.rx b) = if b = Config.ESC then .decEsc else if b = Config.TERM then .decTerm else .decData b := by
  simp [State.instrOf, State.symbolOf, hm, DecMode.bit, decode, decodeKey]

theorem satInc_ne_zero (n : BitVec 2) : satInc n ≠ 0#2 := by
  revert n
  decide

/-- A byte that is appended leaves a frame in flight. -/
theorem append_bridge (hp : s.dec.msgPend = false) (b : Byte) : (s.append b).bridge = .readingFrame := by
  rw [State.append_eq]
  exact (State.bridge_eq_readingFrame_iff _).mpr ⟨hp, .inr (satInc_ne_zero _)⟩

/-- A received byte that does not end a frame leaves one in flight. -/
theorem exec_rx_bridge_of_ne_decTerm (hp : s.dec.msgPend = false) {b : Byte} (hb : s.instrOf (.rx b) ≠ .decTerm) :
    ∃ t, exec (s.instrOf (.rx b)) s = .next t ∧ t.bridge = .readingFrame := by
  cases hm : s.dec.decMode with
  | escd =>
    rw [State.instrOf_rx_of_escd hm]
    refine ⟨_, exec_of_opEnabled ((s.byteEnabled_iff .escd).mpr ⟨hp, hm⟩), ?_⟩
    rw [State.opEffect, State.append_eq]
    exact (State.bridge_eq_readingFrame_iff _).mpr ⟨hp, .inr (satInc_ne_zero _)⟩
  | norm =>
    have hbyte : s.byteEnabled .norm = true := (s.byteEnabled_iff .norm).mpr ⟨hp, hm⟩
    rw [State.instrOf_rx_of_norm hm] at hb ⊢
    split_ifs at hb ⊢ with hesc hterm
    · exact ⟨_, exec_of_opEnabled hbyte, (State.bridge_eq_readingFrame_iff _).mpr ⟨hp, .inl rfl⟩⟩
    · exact absurd rfl hb
    · have hplain : isPlain b = true := (isPlain_iff b).mpr ⟨hesc, hterm⟩
      exact ⟨_, exec_of_opEnabled (Bool.and_eq_true_iff.mpr ⟨hbyte, hplain⟩), append_bridge hp b⟩

/-- The end of a frame publishes it if it is accepted, and else leaves the bridge idle. -/
theorem endFrame_bridge (hp : s.dec.msgPend = false) (hm : s.dec.decMode = .norm) :
    s.endFrame.bridge =
      if s.dec.decCnt = 3#2 ∧ s.dec.decB[0] ∈ s.params.addrKeys then .publishing else .idle := by
  rcases endFrame_cases s with ⟨hc, he⟩ | ⟨-, hv, he⟩ | ⟨hc, hv, he⟩ <;> rw [he]
  · have hne : s.dec.decCnt ≠ 3#2 := by
      intro h
      simp [h] at hc
    rw [if_neg (hne ·.1)]
    exact (State.bridge_eq_idle_iff _).mpr ⟨hp, hm, rfl⟩
  · have hnot : s.dec.decB[0] ∉ s.params.addrKeys := by simp [← addrValid_iff, hv]
    rw [if_neg (hnot ·.2)]
    exact (State.bridge_eq_idle_iff _).mpr ⟨hp, hm, rfl⟩
  · have hfull : s.dec.decCnt = 3#2 := by bv_omega
    rw [if_pos ⟨hfull, (addrValid_iff _ _).mp hv⟩]
    exact (State.bridge_eq_publishing_iff _).mpr rfl

/-- An unescaped terminator received with no message pending ends the frame. -/
theorem exec_rx_term (hp : s.dec.msgPend = false) (hm : s.dec.decMode = .norm) :
    exec (s.instrOf (.rx 0xFF#8)) s = .next s.endFrame := by
  rw [State.instrOf_rx_of_norm hm]
  exact exec_of_opEnabled (i := .decTerm) ((s.byteEnabled_iff .norm).mpr ⟨hp, hm⟩)

end Sys2Proof.Machine

namespace Sys2Proof.Proofs

open Machine

/-- Settles O42: the bridge state says which of the byte lemmas applies; a take uses R39 (a), by which no frame is in
flight while a message is pending. -/
theorem bridgeStatesMove : Obligations.BridgeStatesMove := by
  refine fun s hinv => ⟨fun b hb hne => ?start, fun hb => ?empty, fun b hb hne => ?stay,
    fun hb hm => ?finish, fun hb => ?take⟩
  case start =>
    obtain ⟨hp, hm, -⟩ := s.bridge_eq_idle_iff.mp hb
    refine exec_rx_bridge_of_ne_decTerm hp ?_
    rw [State.instrOf_rx_of_norm hm, if_neg (c := b = Config.TERM) hne]
    split_ifs <;> nofun
  case empty =>
    obtain ⟨hp, hm, hc⟩ := s.bridge_eq_idle_iff.mp hb
    refine ⟨_, exec_rx_term hp hm, by simp [endFrame_bridge hp hm, hc], ?_⟩
    rcases endFrame_cases s with ⟨-, he⟩ | ⟨hfull, -⟩ | ⟨hfull, -⟩
    · rw [he]
    · simp [hc] at hfull
    · simp [hc] at hfull
  case stay => exact exec_rx_bridge_of_ne_decTerm (s.bridge_eq_readingFrame_iff.mp hb).1 hne
  case finish =>
    obtain ⟨hp, -⟩ := s.bridge_eq_readingFrame_iff.mp hb
    exact ⟨_, exec_rx_term hp hm, endFrame_bridge hp hm⟩
  case take =>
    have hp : s.dec.msgPend = true := s.bridge_eq_publishing_iff.mp hb
    obtain ⟨hm, hc⟩ := hinv.pend_idle hp
    exact ⟨_, exec_of_opEnabled hp, (State.bridge_eq_idle_iff _).mpr ⟨rfl, hm, hc⟩⟩

end Sys2Proof.Proofs
end

section
/-! SUPPORT. The bytes a script offers on `rx` (R55, R35). -/

namespace Sys2Proof.Machine

variable {s : State}

theorem rxBytes_append (l₁ l₂ : List Line) : rxBytes (l₁ ++ l₂) = rxBytes l₁ ++ rxBytes l₂ :=
  List.filterMap_append

@[simp] theorem rxBytes_cons_rx (b : Byte) (l : List Line) : rxBytes (.act (.rx b) :: l) = b :: rxBytes l := rfl

/-- A line that is not an `rx` line offers no byte. -/
theorem rxBytes_cons_of_ne {x : Line} (hx : ∀ b : Byte, x ≠ .act (.rx b)) (l : List Line) :
    rxBytes (x :: l) = rxBytes l := by
  rcases x with (b | _ | _ | y | _ | _) | v
  case act.rx => exact absurd rfl (hx b)
  all_goals rfl

/-- With `rx_ready` no `rx` line is held, so held lines offer no byte. -/
theorem rxBytes_of_held (hready : s.rxReady = true) {front : List Line} (h : ∀ x ∈ front, s.held x = true) :
    rxBytes front = [] := by
  induction front with
  | nil => rfl
  | cons x xs ih =>
    obtain ⟨hx, hxs⟩ := List.forall_mem_cons.mp h
    have hne : ∀ b : Byte, x ≠ .act (.rx b) := by
      rintro b rfl
      simp [State.held, hready] at hx
    exact (rxBytes_cons_of_ne hne xs).trans (ih hxs)

end Sys2Proof.Machine

namespace Sys2Proof.Proofs

open Machine

/-- Settles O28: a line that is no `rx` line leaves the bytes, and an `rx` line that is carried out is the first of its
kind, since with `rx_ready` no `rx` line is held. -/
theorem receivedBytesConsumedOnceInOrder : Obligations.ReceivedBytesConsumedOnceInOrder := by
  intro s t h
  rcases step_cases h with rfl | ⟨front, l, rest, hs, hfront, hl, hrun⟩
  · exact .inl ⟨rfl, .inl rfl⟩
  have hscript : t.script = front ++ rest := runLine_script hrun
  by_cases hrx : ∃ b : Byte, l = .act (.rx b)
  · obtain ⟨b, rfl⟩ := hrx
    have hready : s.rxReady = true := by simpa [State.held] using hl
    refine .inr ⟨b, ?_, hready, ?_⟩
    · simp [hs, hscript, rxBytes_append, rxBytes_of_held hready hfront]
    · rw [hscript]
      exact hrun
  · have hne : ∀ b : Byte, l ≠ .act (.rx b) := not_exists.mp hrx
    refine .inl ⟨?_, .inr ⟨front, l, rest, hs, hne, hrun⟩⟩
    rw [hscript, hs, rxBytes_append, rxBytes_append, rxBytes_cons_of_ne hne]

end Sys2Proof.Proofs
end

section
/-! SUPPORT. What an operation of DEC reads (R58). `graftDec` puts the DEC of one state into another; every operation
of DEC commutes with it, so it reads nothing of the rest and only appends to the events. -/

namespace Sys2Proof.Machine

/-- The state `r` with the elements of DEC and the parameters of `s`, and the events of `s` after its own. -/
def State.graftDec (r s : State) : State :=
  { r with dec := s.dec, params := s.params, decOut := r.decOut ++ s.decOut }

variable (r s : State)

@[simp] theorem State.graftDec_dec : (r.graftDec s).dec = s.dec := rfl
@[simp] theorem State.graftDec_params : (r.graftDec s).params = s.params := rfl

@[simp] theorem State.withDec_graftDec (d : Dec) : (r.graftDec s).withDec d = r.graftDec (s.withDec d) := rfl

@[simp] theorem State.emit_graftDec (e : DecEvent) : (r.graftDec s).emit e = r.graftDec (s.emit e) := by
  simp [State.graftDec, State.emit]

@[simp] theorem State.raise_graftDec (c : ErrCond) (info : Byte) :
    (r.graftDec s).raise c info = r.graftDec (s.raise c info) := by
  simp [State.raise]

@[simp] theorem State.append_graftDec (b : Byte) : (r.graftDec s).append b = r.graftDec (s.append b) := by
  simp [State.append]

@[simp] theorem State.rejectShort_graftDec : (r.graftDec s).rejectShort = r.graftDec s.rejectShort := by
  simp [State.rejectShort]

@[simp] theorem State.rejectUnknown_graftDec : (r.graftDec s).rejectUnknown = r.graftDec s.rejectUnknown := by
  simp [State.rejectUnknown]

@[simp] theorem State.interpret_graftDec : (r.graftDec s).interpret = r.graftDec s.interpret := by
  simp [State.interpret, apply_ite r.graftDec]

@[simp] theorem State.endFrame_graftDec : (r.graftDec s).endFrame = r.graftDec s.endFrame := by
  simp [State.endFrame]

@[simp] theorem State.abortFrame_graftDec : (r.graftDec s).abortFrame = r.graftDec s.abortFrame := by
  simp [State.abortFrame, apply_ite r.graftDec]

variable {i : Instr}

theorem opEnabled_graftDec (h : i.isDec = true) : (r.graftDec s).opEnabled i = s.opEnabled i := by
  cases i <;> try contradiction
  all_goals rfl

theorem opEffect_graftDec (h : i.isDec = true) : (r.graftDec s).opEffect i = r.graftDec (s.opEffect i) := by
  cases i <;> try contradiction
  all_goals simp [State.opEffect]

/-- An operation of DEC carries out the same in every state around DEC. -/
theorem exec_graftDec {t : State} (h : i.isDec = true) (hexec : exec i s = .next t) :
    exec i (r.graftDec s) = .next (r.graftDec t) := by
  rcases exec_cases hexec with ⟨hen, rfl⟩ | ⟨hdis, rfl⟩
  · rw [exec_of_opEnabled ((opEnabled_graftDec r s h).trans hen), opEffect_graftDec r s h]
  · exact exec_of_not_opEnabled ((opEnabled_graftDec r t h).trans hdis)

/-- What an operation of DEC does to DEC's elements and events is fixed by DEC's elements and the parameters: it is
what it does in the state with no events so far. -/
theorem exec_dec_of_agree (h : i.isDec = true) (s : State) : ∃ d evs, ∀ u : State, u.dec = s.dec →
    u.params = s.params → exec i u = .next { u with dec := d, decOut := u.decOut ++ evs } := by
  obtain ⟨t, ht⟩ : ∃ t, exec i { s with decOut := [] } = .next t := ⟨_, exec_eq_stepIf i _⟩
  have hparams : t.params = s.params := exec_params (s := { s with decOut := [] }) ht
  refine ⟨t.dec, t.decOut, fun u hdec hpar => ?_⟩
  calc exec i u
      _ = exec i (u.graftDec { s with decOut := [] }) := by simp [State.graftDec, ← hdec, ← hpar]
      _ = .next (u.graftDec t) := exec_graftDec _ _ h ht
      _ = .next { u with dec := t.dec, decOut := u.decOut ++ t.decOut } := by
        rw [State.graftDec, hparams, ← hpar]

end Sys2Proof.Machine
end

section
/-! SUPPORT. What an operation of ENC reads (R58): the conditions and effects of ENC are one case per row. -/

namespace Sys2Proof.Machine

variable {i : Instr}

theorem opEnabled_enc_congr (h : i.isEnc = true) {s u : State} (henc : u.enc = s.enc) (hpar : u.params = s.params)
    (htx : u.txReady = s.txReady) : u.opEnabled i = s.opEnabled i := by
  cases i <;> try contradiction
  all_goals simp [State.opEnabled, State.tinEnabled, State.tinReady, State.litEnabled, henc, hpar, htx]

/-- The effect of an operation of ENC is fixed by ENC's elements. -/
theorem opEffect_enc_of_agree (h : i.isEnc = true) (s : State) : ∃ e out, ∀ u : State, u.enc = s.enc →
    u.opEffect i = { u with enc := e, txOut := u.txOut ++ out } := by
  cases i <;> try contradiction
  case encPlain d => exact ⟨{ s.enc with encBusy := true }, [d], fun u hu => hu ▸ rfl⟩
  case encResv d => exact ⟨⟨true, true, d⟩, [Config.ESC], fun u _ => rfl⟩
  case encLit => exact ⟨{ s.enc with encPendV := false }, [s.enc.encPendB], fun u hu => hu ▸ rfl⟩
  case encEnd x => exact ⟨{ s.enc with encBusy := false }, [Config.TERM], fun u hu => hu ▸ rfl⟩

/-- What an operation of ENC does to ENC's elements and bytes is fixed by ENC's elements, the parameters and
`tx_ready`. -/
theorem exec_enc_of_agree (h : i.isEnc = true) (s : State) : ∃ e out, ∀ u : State, u.enc = s.enc →
    u.params = s.params → u.txReady = s.txReady →
    exec i u = .next { u with enc := e, txOut := u.txOut ++ out } := by
  cases hen : s.opEnabled i with
  | true =>
    obtain ⟨e, out, heffect⟩ := opEffect_enc_of_agree h s
    refine ⟨e, out, fun u henc hpar htx => ?_⟩
    rw [exec_of_opEnabled ((opEnabled_enc_congr h henc hpar htx).trans hen), heffect u henc]
  | false =>
    refine ⟨s.enc, [], fun u henc hpar htx => ?_⟩
    rw [exec_of_not_opEnabled ((opEnabled_enc_congr h henc hpar htx).trans hen), ← henc, List.append_nil]

end Sys2Proof.Machine

namespace Sys2Proof.Proofs

open Machine

/-- Settles O39: an operation replaces its agent's elements and appends to its events, both fixed by what the two states
agree on. -/
theorem agentsSeeOnlyThemselves : Obligations.AgentsSeeOnlyThemselves := by
  refine ⟨fun i s₁ s₂ h hdec hpar => ?dec, fun i s₁ s₂ h henc hpar htx => ?enc⟩
  case dec =>
    obtain ⟨d, evs, hexec⟩ := exec_dec_of_agree h s₁
    exact ⟨_, _, evs, hexec s₁ rfl rfl, hexec s₂ hdec.symm hpar.symm, rfl, rfl, rfl⟩
  case enc =>
    obtain ⟨e, out, hexec⟩ := exec_enc_of_agree h s₁
    exact ⟨_, _, out, hexec s₁ rfl rfl rfl, hexec s₂ henc.symm hpar.symm htx.symm, rfl, rfl, rfl⟩

/-- Settles O40: each operation leaves what the other reads, so it does the same before and after the other, and the two
write different elements. -/
theorem agentsCommute : Obligations.AgentsCommute := by
  intro d e s hd he
  obtain ⟨dec, evs, hdec⟩ := exec_dec_of_agree hd s
  obtain ⟨enc, out, henc⟩ := exec_enc_of_agree he s
  exact ⟨_, _, _, hdec s rfl rfl, henc _ rfl rfl rfl, henc s rfl rfl rfl, hdec _ rfl rfl⟩

end Sys2Proof.Proofs
end

section
/-! SUPPORT. The decode and encoder maps on the two symbols of a byte (R71, R72, R77, R78), and the encoding as their
inverse. -/

namespace Sys2Proof

open Machine

@[simp] theorem decodeKey_mkSym_one (b : Byte) : decodeKey (mkSym 1#1 b) = .decLit b := by
  simp [decodeKey]

theorem decodeKey_mkSym_zero (b : Byte) :
    decodeKey (mkSym 0#1 b) =
      if b = Config.ESC then .decEsc else if b = Config.TERM then .decTerm else .decData b := by
  simp [decodeKey]

theorem decodeKey_of_isPlain {b : Byte} (h : isPlain b = true) : decodeKey (mkSym 0#1 b) = .decData b := by
  obtain ⟨hesc, hterm⟩ := (isPlain_iff b).mp h
  rw [decodeKey_mkSym_zero, if_neg (c := b = Config.ESC) hesc, if_neg (c := b = Config.TERM) hterm]

@[simp] theorem decodeTin_mkSym_one (m : EscMode) (x : Byte) : decodeTin m (mkSym 1#1 x) = .encEnd x := by
  simp [decodeTin]

theorem decodeTin_of_resv {m : EscMode} {d : Byte} (h : resv m d = true) :
    decodeTin m (mkSym 0#1 d) = .encResv d := by
  simp [decodeTin, h]

theorem decodeTin_of_not_resv {m : EscMode} {d : Byte} (h : resv m d = false) :
    decodeTin m (mkSym 0#1 d) = .encPlain d := by
  simp [decodeTin, h]

/-- Every 9-bit symbol is one of the two symbols of a byte. -/
theorem exists_eq_mkSym (y : Sym9) : ∃ b, y = mkSym 0#1 b ∨ y = mkSym 1#1 b := by
  refine ⟨symData y, ?_⟩
  have hy := mkSym_symTop_symData y
  cases h : symTop y <;> rw [h] at hy
  · exact .inl hy.symm
  · exact .inr hy.symm

/-- The decode key selects a well-formed operation, and it is that operation's encoding. -/
theorem decodeKey_spec (m : EscMode) (k : Sym9) :
    (decodeKey k).wellFormed m = true ∧ encode (decodeKey k) = .dkey k := by
  obtain ⟨b, rfl | rfl⟩ := exists_eq_mkSym k
  · rw [decodeKey_mkSym_zero]
    split_ifs with hesc hterm
    · exact ⟨rfl, hesc ▸ rfl⟩
    · exact ⟨rfl, hterm ▸ rfl⟩
    · exact ⟨(isPlain_iff b).mpr ⟨hesc, hterm⟩, rfl⟩
  · rw [decodeKey_mkSym_one]
    exact ⟨rfl, rfl⟩

/-- The encoder symbol selects a well-formed operation, and it is that operation's encoding (log 15). -/
theorem decodeTin_spec (m : EscMode) (y : Sym9) :
    (decodeTin m y).wellFormed m = true ∧ encode (decodeTin m y) = .tin y := by
  obtain ⟨b, rfl | rfl⟩ := exists_eq_mkSym y
  · cases h : resv m b
    · rw [decodeTin_of_not_resv h]
      exact ⟨by simp [Instr.wellFormed, h], rfl⟩
    · rw [decodeTin_of_resv h]
      exact ⟨h, rfl⟩
  · rw [decodeTin_mkSym_one]
    exact ⟨rfl, rfl⟩

end Sys2Proof

namespace Sys2Proof.Proofs

open Machine

/-- Settles O21: well-formedness is what the maps test on the data of the symbol. -/
theorem decodeOfEncodeIsTheInstruction : Obligations.DecodeOfEncodeIsTheInstruction := by
  intro m i hwf
  cases i with
  | decData b => exact decodeKey_of_isPlain hwf
  | decLit b => exact decodeKey_mkSym_one b
  | encPlain d => exact decodeTin_of_not_resv ((Bool.not_eq_true' _).mp hwf)
  | encResv d => exact decodeTin_of_resv hwf
  | encEnd x => exact decodeTin_mkSym_one m x
  | decEsc => exact decodeKey_mkSym_zero Config.ESC
  | decTerm => exact decodeKey_mkSym_zero Config.TERM
  | decClose => rfl
  | msgTake => rfl
  | encLit => rfl
  | reset => rfl

/-- Settles O22: the two maps are inverted by `encode`, and an action is the encoding of its one operation. -/
theorem everySymbolSelectsExactlyOneOperation : Obligations.EverySymbolSelectsExactlyOneOperation := by
  intro m y
  cases y with
  | dkey k => exact decodeKey_spec m k
  | tin y => exact decodeTin_spec m y
  | close => exact ⟨rfl, rfl⟩
  | take => exact ⟨rfl, rfl⟩
  | lit => exact ⟨rfl, rfl⟩
  | reset => exact ⟨rfl, rfl⟩

/-- Settles O18: the map on the two keys of a byte, and every key is one of them. -/
theorem decodeMapIsTheTable : Obligations.DecodeMapIsTheTable := by
  refine fun m => ⟨fun b hesc hterm => decodeKey_of_isPlain ((isPlain_iff b).mpr ⟨hesc, hterm⟩),
    decodeKey_mkSym_zero Config.ESC, decodeKey_mkSym_zero Config.TERM, decodeKey_mkSym_one, fun k => ?_⟩
  obtain ⟨b, h | h⟩ := exists_eq_mkSym k
  · exact ⟨0#1, b, h⟩
  · exact ⟨1#1, b, h⟩

/-- Settles O19: the map on the two symbols of a byte, by the reserved bytes of each mode. -/
theorem encoderMapIsTheTable : Obligations.EncoderMapIsTheTable := by
  refine ⟨fun m d hesc hterm => ?plain, decodeTin_of_resv rfl, decodeTin_of_not_resv rfl,
    fun m => decodeTin_of_resv ((resv_iff m _).mpr (.inl rfl)), decodeTin_mkSym_one, fun _ => rfl⟩
  case plain => exact decodeTin_of_not_resv (resv_of_isPlain m d ((isPlain_iff d).mpr ⟨hesc, hterm⟩))

/-- Settles O20: twelve closed evaluations of the maps. -/
theorem writtenOutSymbolsDecode : Obligations.WrittenOutSymbolsDecode := by
  unfold Obligations.WrittenOutSymbolsDecode
  decide

end Sys2Proof.Proofs
end

section
/-! SUPPORT. Where a script leads when its first lines are held (R88, log 2), and when a table word is placed at its
front (log 10, log 11). -/

namespace Sys2Proof.Machine

variable {s : State}

/-- Held lines are passed over and stay. -/
theorem State.pick_append {front : List Line} (hfront : ∀ x ∈ front, s.held x = true) {l : Line}
    (hl : s.held l = false) (rest : List Line) : s.pick (front ++ l :: rest) = some (l, front ++ rest) := by
  induction front with
  | nil => simp [State.pick, hl]
  | cons x front ih =>
    obtain ⟨hx, hxs⟩ := List.forall_mem_cons.mp hfront
    simp [State.pick, hx, ih hxs]

/-- The key of the byte presented for a decode key is that key. -/
theorem mkSym_bit_ofBit (k : Sym9) : mkSym (DecMode.ofBit (symTop k)).bit (symData k) = k := by
  have hbit : (DecMode.ofBit (symTop k)).bit = if symTop k then 1#1 else 0#1 := by
    cases symTop k <;> rfl
  rw [hbit, mkSym_symTop_symData]

/-- A symbol presented is decoded and run by the very next step. -/
theorem step_present (y : Symbol) (s : State) :
    step (s.present y) = exec (decode s.params.escMode y) { s.present y with script := s.script } := by
  obtain ⟨hrx, htin, hlit, hclose, htake, hreset⟩ :=
    Proofs.stepRunsTheDecodedOperation (s.present y) s.script
  cases y with
  | dkey k =>
    have h := hrx (symData k) rfl rfl
    rwa [show (s.present (.dkey k)).dec.decMode = DecMode.ofBit (symTop k) from rfl, mkSym_bit_ofBit] at h
  | tin y => exact htin y rfl rfl rfl
  | close => exact hclose rfl
  | take => exact htake rfl
  | lit => exact hlit rfl rfl
  | reset => exact hreset rfl

/-- A table word that decodes stands for a symbol. -/
theorem decodeTableWord_eq_some {nbits w : Nat} {i : Instr} (h : decodeTableWord nbits w = some i) :
    ∃ y, symbolOfWord (tableWord nbits w) = .ok y ∧ decode .twoSided y = i := by
  rw [decodeTableWord] at h
  cases hy : symbolOfWord (tableWord nbits w) with
  | error r => simp [hy] at h
  | ok y => exact ⟨y, rfl, by simpa [hy, Config.params] using h⟩

/-- Placing a table word is presenting its symbol. -/
theorem State.withFetchWord_eq_present {nbits w : Nat} {y : Symbol}
    (h : symbolOfWord (tableWord nbits w) = .ok y) (s : State) : s.withFetchWord nbits w = s.present y := by
  rw [State.withFetchWord, State.presentWord, h]

end Sys2Proof.Machine

namespace Sys2Proof.Proofs

open Machine

/-- Settles O25: the line fetched is the first that is not held. -/
theorem heldLinesStayOffered : Obligations.HeldLinesStayOffered := by
  intro s front l rest hs hfront hl
  rw [step, State.stepOnce, State.fetch, hs, State.pick_append hfront hl]
  rfl

/-- Settles O30: the word is presented as its symbol, and the next step runs what that symbol decodes to. -/
theorem wordPlacedIsRunNext : Obligations.WordPlacedIsRunNext := by
  intro s nbits w i hmode hw
  obtain ⟨y, hy, rfl⟩ := decodeTableWord_eq_some hw
  rw [State.withFetchWord_eq_present hy, step_present, hmode]

end Sys2Proof.Proofs
end

section
/-! SUPPORT. The events of a step are legal (R81 to R83, R85). -/

namespace Sys2Proof.Machine

/-- From `s` to `t` legal events are appended to the DEC events. -/
def EmitsLegal (s t : State) : Prop :=
  ∃ evs : List DecEvent, t.decOut = s.decOut ++ evs ∧ ∀ e ∈ evs, e.legal = true

variable {s t u : State}

theorem EmitsLegal.of_decOut_eq (h : t.decOut = s.decOut) : EmitsLegal s t :=
  ⟨[], h.trans (List.append_nil _).symm, nofun⟩

theorem EmitsLegal.trans (h₁ : EmitsLegal s t) (h₂ : EmitsLegal t u) : EmitsLegal s u := by
  obtain ⟨evs₁, hst, hlegal₁⟩ := h₁
  obtain ⟨evs₂, htu, hlegal₂⟩ := h₂
  exact ⟨evs₁ ++ evs₂, by rw [htu, hst, List.append_assoc], List.forall_mem_append.mpr ⟨hlegal₁, hlegal₂⟩⟩

/-- One legal event emitted. -/
theorem EmitsLegal.single {e : DecEvent} (he : e.legal = true) (h : t.decOut = s.decOut ++ [e]) : EmitsLegal s t :=
  ⟨[e], h, List.forall_mem_singleton.mpr he⟩

@[simp] theorem legal_fend : fend.legal = true := rfl
@[simp] theorem legal_fabort : fabort.legal = true := rfl
@[simp] theorem legal_flush : DecEvent.flush.legal = true := rfl
@[simp] theorem legal_unknownAddress (a : Byte) : (DecEvent.err 0b010#3 a).legal = true := rfl

/-- The length of a SHORT frame is below 3 (R82). -/
theorem legal_short {n : BitVec 2} (h : n.toNat < 3) :
    (DecEvent.err 0b001#3 (malformedInfo subShort n)).legal = true := by
  revert n
  decide

/-- The length of a TRUNCATED frame is not 0 (R82). -/
theorem legal_truncated {n : BitVec 2} (h : 0#2 < n) :
    (DecEvent.err 0b001#3 (malformedInfo subTruncated n)).legal = true := by
  revert n
  decide

theorem legal_danglingEsc (n : BitVec 2) :
    (DecEvent.err 0b001#3 (malformedInfo subDanglingEsc n)).legal = true := by
  revert n
  decide

theorem endFrame_emitsLegal (s : State) : EmitsLegal s s.endFrame := by
  rcases endFrame_cases s with ⟨hc, he⟩ | ⟨-, -, he⟩ | ⟨-, -, he⟩ <;> rw [he]
  · exact ⟨_, rfl, by simp [legal_short hc]⟩
  · exact ⟨_, rfl, by simp⟩
  · exact .single legal_fend rfl

theorem abortFrame_emitsLegal (s : State) : EmitsLegal s s.abortFrame := by
  rcases abortFrame_cases s with ⟨-, he⟩ | ⟨-, hc, he⟩ | ⟨-, -, he⟩ <;> rw [he]
  · exact ⟨_, rfl, by simp [legal_danglingEsc]⟩
  · exact ⟨_, rfl, by simp [legal_truncated hc]⟩
  · exact .of_decOut_eq rfl

theorem opEffect_emitsLegal (i : Instr) (s : State) : EmitsLegal s (s.opEffect i) := by
  cases i with
  | decData b => exact .single rfl rfl
  | decLit b => exact .single rfl rfl
  | decTerm => exact endFrame_emitsLegal s
  | decClose => exact (abortFrame_emitsLegal s).trans (.single (e := .err 0b011#3 0x00#8) rfl rfl)
  | msgTake => exact .single rfl rfl
  | decEsc => exact .of_decOut_eq rfl
  | encPlain d => exact .of_decOut_eq rfl
  | encResv d => exact .of_decOut_eq rfl
  | encLit => exact .of_decOut_eq rfl
  | encEnd x => exact .of_decOut_eq rfl
  | reset => exact .of_decOut_eq rfl

theorem runLine_emitsLegal {l : Line} (h : runLine l s = .next t) : EmitsLegal s t := by
  cases l with
  | act a =>
    rcases exec_cases h with ⟨-, rfl⟩ | ⟨-, rfl⟩
    · exact opEffect_emitsLegal _ s
    · exact .of_decOut_eq rfl
  | txReady v =>
    cases h
    exact .of_decOut_eq rfl

end Sys2Proof.Machine

namespace Sys2Proof.Proofs

open Machine

/-- Settles O35: a step changes nothing or carries out one line, and every line appends legal events only. -/
theorem onlyLegalEventsAreEmitted : Obligations.OnlyLegalEventsAreEmitted := by
  intro s t h
  rcases step_cases h with rfl | ⟨front, l, rest, -, -, -, hrun⟩
  · exact EmitsLegal.of_decOut_eq rfl
  · exact (EmitsLegal.of_decOut_eq (State.withScript_decOut s _)).trans (runLine_emitsLegal hrun)

end Sys2Proof.Proofs
end

section
/-! SUPPORT. A parser for the wire grammar (R73), and a parse built from its end: a parse is empty, a lone escape, or
a terminator or an item before a parse. -/

namespace Sys2Proof.Machine

/-- A terminator before a parse: it ends an empty frame. -/
def Parse.consTerm (p : Parse) : Parse := { p with frames := [] :: p.frames }

/-- An item before a parse: it goes to the first frame, or to the partial frame where there is no other. -/
def Parse.consItem (i : Item) (p : Parse) : Parse :=
  match p.frames with
  | [] => { p with rest := i :: p.rest }
  | f :: fs => { p with frames := (i :: f) :: fs }

@[simp] theorem Parse.ok_consTerm (p : Parse) : p.consTerm.ok = p.ok := rfl

@[simp] theorem Parse.wire_consTerm (p : Parse) : p.consTerm.wire = Config.TERM :: p.wire := rfl

@[simp] theorem Parse.ok_consItem (i : Item) (p : Parse) : (p.consItem i).ok = (i.ok && p.ok) := by
  obtain ⟨_ | ⟨f, fs⟩, rest, dangling⟩ := p <;> simp [Parse.consItem, Parse.ok, Bool.and_assoc]

@[simp] theorem Parse.wire_consItem (i : Item) (p : Parse) : (p.consItem i).wire = i.wire ++ p.wire := by
  obtain ⟨_ | ⟨f, fs⟩, rest, _ | _⟩ := p <;> simp [Parse.consItem, Parse.wire]

/-- Every parse is built from its end, by induction over its frames and the items of each. -/
theorem Parse.consInduction {motive : Parse → Prop} (empty : motive ⟨[], [], false⟩) (escape : motive ⟨[], [], true⟩)
    (consTerm : ∀ p : Parse, motive p → motive p.consTerm)
    (consItem : ∀ (i : Item) (p : Parse), motive p → motive (p.consItem i)) (p : Parse) : motive p := by
  obtain ⟨frames, rest, dangling⟩ := p
  induction frames with
  | nil =>
    induction rest with
    | nil =>
      cases dangling
      · exact empty
      · exact escape
    | cons i rest ih => exact consItem i ⟨[], rest, dangling⟩ ih
  | cons f fs ih =>
    induction f with
    | nil => exact consTerm ⟨fs, rest, dangling⟩ ih
    | cons i f ihf => exact consItem i ⟨f :: fs, rest, dangling⟩ ihf

/-- The parse of a byte stream. -/
def parseBytes : List Byte → Parse
  | [] => ⟨[], [], false⟩
  | b :: bytes =>
    if b = Config.TERM then (parseBytes bytes).consTerm
    else if b = Config.ESC then
      match bytes with
      | [] => ⟨[], [], true⟩
      | c :: bytes => (parseBytes bytes).consItem (.esc c)
    else (parseBytes bytes).consItem (.plain b)

theorem parseBytes_cons_term (bytes : List Byte) :
    parseBytes (Config.TERM :: bytes) = (parseBytes bytes).consTerm := by
  rw [parseBytes.eq_def]
  exact if_pos rfl

theorem parseBytes_cons_of_isPlain {b : Byte} (h : isPlain b = true) (bytes : List Byte) :
    parseBytes (b :: bytes) = (parseBytes bytes).consItem (.plain b) := by
  obtain ⟨hesc, hterm⟩ := (isPlain_iff b).mp h
  rw [parseBytes.eq_def]
  exact (if_neg hterm).trans (if_neg hesc)

theorem parseBytes_ok (bytes : List Byte) : (parseBytes bytes).ok = true := by
  fun_induction parseBytes bytes with
  | case1 => rfl
  | case2 bytes ih => exact ih
  | case3 => rfl
  | case4 c bytes _ ih => rw [Parse.ok_consItem, ih]; rfl
  | case5 b bytes hterm hesc ih =>
    have hplain : (Item.plain b).ok = true := (isPlain_iff b).mpr ⟨hesc, hterm⟩
    rw [Parse.ok_consItem, hplain, ih]; rfl

theorem wire_parseBytes (bytes : List Byte) : (parseBytes bytes).wire = bytes := by
  fun_induction parseBytes bytes with
  | case1 => rfl
  | case2 bytes ih => rw [Parse.wire_consTerm, ih]
  | case3 => rfl
  | case4 c bytes _ ih => rw [Parse.wire_consItem, ih]; rfl
  | case5 b bytes _ _ ih => rw [Parse.wire_consItem, ih]; rfl

/-- The first byte tells which item the stream begins with. -/
theorem parseBytes_item_append {i : Item} (h : i.ok = true) (bytes : List Byte) :
    parseBytes (i.wire ++ bytes) = (parseBytes bytes).consItem i := by
  cases i with
  | plain b => exact parseBytes_cons_of_isPlain h bytes
  | esc b => rfl

/-- The parser gives back every parse of the grammar, so no other parse has the same bytes. -/
theorem parseBytes_wire {p : Parse} (h : p.ok = true) : parseBytes p.wire = p := by
  induction p using Parse.consInduction with
  | empty => rfl
  | escape => rfl
  | consTerm p ih => rw [Parse.wire_consTerm, parseBytes_cons_term, ih h]
  | consItem i p ih =>
    obtain ⟨hi, hp⟩ : i.ok = true ∧ p.ok = true := by simpa using h
    rw [Parse.wire_consItem, parseBytes_item_append hi, ih hp]

end Sys2Proof.Machine

namespace Sys2Proof.Proofs

open Machine

/-- Settles O51: `parseBytes` gives a parse of the stream, and gives back any other. -/
theorem everyStreamParsesUniquely : Obligations.EveryStreamParsesUniquely := by
  refine fun bytes => ⟨parseBytes bytes, ⟨parseBytes_ok bytes, wire_parseBytes bytes⟩, ?_⟩
  rintro p ⟨hok, rfl⟩
  exact (parseBytes_wire hok).symm

end Sys2Proof.Proofs
end

section
/-! SUPPORT. Decode (R108) over the wire form of items, frames and parses (R73). -/

namespace Sys2Proof.Machine

/-- An item read with no escape open adds its value to the current frame. -/
theorem foldl_decodeTurn_item {i : Item} (h : i.ok = true) (frames : List (List Byte)) (cur : List Byte) :
    i.wire.foldl decodeTurn (frames, cur, .norm) = (frames, cur ++ [i.value], .norm) := by
  cases i with
  | plain b =>
    obtain ⟨hesc, hterm⟩ := (isPlain_iff b).mp h
    simp [Item.wire, Item.value, decodeTurn, Config.ESC, Config.TERM, hesc, hterm]
  | esc b => rfl

theorem foldl_decodeTurn_items {items : List Item} (h : ∀ i ∈ items, i.ok = true) (frames : List (List Byte))
    (cur : List Byte) :
    (items.flatMap Item.wire).foldl decodeTurn (frames, cur, .norm) =
      (frames, cur ++ items.map Item.value, .norm) := by
  induction items generalizing cur with
  | nil => simp
  | cons i items ih =>
    obtain ⟨hi, hitems⟩ := List.forall_mem_cons.mp h
    rw [List.flatMap_cons, List.foldl_append, foldl_decodeTurn_item hi, ih hitems, List.map_cons,
      List.append_assoc, List.singleton_append]

theorem foldl_decodeTurn_frames {fs : List (List Item)} (h : ∀ f ∈ fs, ∀ i ∈ f, i.ok = true)
    (frames : List (List Byte)) :
    (fs.flatMap (fun f => f.flatMap Item.wire ++ [Config.TERM])).foldl decodeTurn (frames, [], .norm) =
      (frames ++ fs.map (fun f => f.map Item.value), [], .norm) := by
  induction fs generalizing frames with
  | nil => simp
  | cons f fs ih =>
    obtain ⟨hf, hfs⟩ := List.forall_mem_cons.mp h
    have hterm : ∀ cur, [Config.TERM].foldl decodeTurn (frames, cur, .norm) = (frames ++ [cur], [], .norm) :=
      fun _ => rfl
    rw [List.flatMap_cons, List.foldl_append, List.foldl_append, foldl_decodeTurn_items hf, hterm, ih hfs,
      List.nil_append, List.map_cons, List.append_assoc, List.singleton_append]

end Sys2Proof.Machine

namespace Sys2Proof.Proofs

open Machine

/-- Settles O52: the fold of Decode over the frames, then over the partial frame, then over the lone escape. -/
theorem parseGivesTheDecodedFrames : Obligations.ParseGivesTheDecodedFrames := by
  rintro ⟨fs, rest, dangling⟩ hok
  obtain ⟨hfs, hrest⟩ : (∀ f ∈ fs, ∀ i ∈ f, i.ok = true) ∧ ∀ i ∈ rest, i.ok = true := by
    simpa [Parse.ok] using hok
  rw [refDecode, Parse.wire, List.foldl_append, List.foldl_append, foldl_decodeTurn_frames hfs,
    foldl_decodeTurn_items hrest]
  cases dangling <;> rfl

end Sys2Proof.Proofs
end

section
/-! SUPPORT. Encode (R177) byte by byte. -/

namespace Sys2Proof.Machine

/-- What is sent for one payload byte. -/
def escape (m : EscMode) (d : Byte) : List Byte := if resv m d then [Config.ESC, d] else [d]

theorem refEncode_cons (m : EscMode) (d : Byte) (p : List Byte) :
    refEncode m (d :: p) = escape m d ++ refEncode m p := by
  simp [refEncode, escape]

theorem length_escape (m : EscMode) (d : Byte) : (escape m d).length = (if resv m d = true then 1 else 0) + 1 := by
  rw [escape]
  split_ifs <;> rfl

end Sys2Proof.Machine

namespace Sys2Proof.Proofs

open Machine

/-- Settles O50: each payload byte adds one byte, and one more if it is reserved. -/
theorem encodedLength : Obligations.EncodedLength := by
  intro m p
  induction p with
  | nil => rfl
  | cons d p ih =>
    rw [refEncode_cons, List.length_append, length_escape, ih, List.length_cons, List.countP_cons]
    omega

end Sys2Proof.Proofs
end

section
/-! SUPPORT. A frame received byte by byte (R89): the encoding of a payload on `rx` appends the payload's bytes, and
its terminator ends the frame. -/

namespace Sys2Proof.Machine

variable {s t u : State}

/-- Under two-sided escaping the reserved bytes are those that are not plain (R73, R170). -/
theorem resv_twoSided (d : Byte) : resv .twoSided d = !isPlain d := by
  simp [resv, isPlain, bne, Bool.or_comm]

theorem runs_add {m n : Nat} (h₁ : runs m s = .next t) (h₂ : runs n t = .next u) : runs (m + n) s = .next u := by
  induction m generalizing s with
  | zero =>
    cases h₁
    rwa [Nat.zero_add]
  | succ m ih =>
    rw [Nat.succ_add]
    rw [runs] at h₁ ⊢
    cases hs : step s with
    | next s' =>
      rw [hs] at h₁
      exact ih h₁
    | fault r => nomatch r
    | refused r => simp [hs] at h₁

theorem runs_one (s : State) : runs 1 s = step s := by
  rw [runs]
  cases step s <;> rfl

/-- An offered byte is received while no message is pending. -/
theorem step_rxLine (hp : s.dec.msgPend = false) (b : Byte) (more : List Line) :
    step (s.withScript (rxLine b :: more)) = exec (s.instrOf (.rx b)) (s.withScript more) :=
  step_of_not_held (s := s.withScript _) (l := rxLine b) rfl (by simp [rxLine, State.held, State.rxReady, hp])

theorem step_rxLine_of_isPlain (hm : s.dec.decMode = .norm) (hp : s.dec.msgPend = false) {b : Byte}
    (hb : isPlain b = true) (more : List Line) :
    step (s.withScript (rxLine b :: more)) = .next ((s.append b).withScript more) := by
  have hi : s.instrOf (.rx b) = .decData b := by
    rw [State.instrOf, State.symbolOf, hm]
    exact decodeKey_of_isPlain hb
  rw [step_rxLine hp, hi]
  exact exec_of_opEnabled (Bool.and_eq_true_iff.mpr ⟨(State.byteEnabled_iff .norm _).mpr ⟨hp, hm⟩, hb⟩)

theorem step_rxLine_esc (hm : s.dec.decMode = .norm) (hp : s.dec.msgPend = false) (more : List Line) :
    step (s.withScript (rxLine Config.ESC :: more)) =
      .next ((s.withDec { s.dec with decMode := .escd }).withScript more) := by
  rw [step_rxLine hp, State.instrOf_rx_of_norm hm, if_pos rfl]
  exact exec_of_opEnabled (i := .decEsc) ((State.byteEnabled_iff .norm _).mpr ⟨hp, hm⟩)

theorem step_rxLine_of_escd (hm : s.dec.decMode = .escd) (hp : s.dec.msgPend = false) (b : Byte)
    (more : List Line) :
    step (s.withScript (rxLine b :: more)) =
      .next (((s.append b).withDec { (s.append b).dec with decMode := .norm }).withScript more) := by
  rw [step_rxLine hp, State.instrOf_rx_of_escd hm]
  exact exec_of_opEnabled (i := .decLit b) ((State.byteEnabled_iff .escd _).mpr ⟨hp, hm⟩)

theorem step_rxLine_term (hm : s.dec.decMode = .norm) (hp : s.dec.msgPend = false) (more : List Line) :
    step (s.withScript (rxLine Config.TERM :: more)) = .next (s.withScript more).endFrame := by
  rw [step_rxLine hp]
  exact exec_rx_term (s := s.withScript more) hp hm

@[simp] theorem append_decMode (b : Byte) (s : State) : (s.append b).dec.decMode = s.dec.decMode := by
  rw [State.append_eq]

@[simp] theorem append_msgPend (b : Byte) (s : State) : (s.append b).dec.msgPend = s.dec.msgPend := by
  rw [State.append_eq]

theorem Dec.store_decB (b : Byte) (d : Dec) :
    (d.store b).decB = if h : d.decCnt.toNat < 3 then d.decB.set d.decCnt.toNat b h else d.decB := by
  unfold Dec.store
  split <;> rfl

/-- An escape opened before a byte and closed after it leaves what `Append` alone leaves. -/
theorem append_escaped (hm : s.dec.decMode = .norm) (b : Byte) :
    let t := (s.withDec { s.dec with decMode := .escd }).append b
    t.withDec { t.dec with decMode := .norm } = s.append b := by
  simp [State.append_eq, Dec.store_decB, State.withDec, hm]

/-- The two-sided encoding of a byte, received, appends that byte. -/
theorem runs_rx_escape (hm : s.dec.decMode = .norm) (hp : s.dec.msgPend = false) (d : Byte) (more : List Line) :
    runs (escape .twoSided d).length (s.withScript (rxScript (escape .twoSided d) ++ more)) =
      .next ((s.append d).withScript more) := by
  rw [escape]
  split_ifs with hd
  · have hesc := step_rxLine_esc hm hp (rxLine d :: more)
    have hlit := step_rxLine_of_escd (s := s.withDec { s.dec with decMode := .escd }) rfl hp d more
    rw [append_escaped hm] at hlit
    exact runs_add (m := 1) ((runs_one _).trans hesc) ((runs_one _).trans hlit)
  · have hplain : isPlain d = true := by simpa [resv_twoSided] using hd
    exact (runs_one _).trans (step_rxLine_of_isPlain hm hp hplain more)

/-- The bytes of a frame appended in turn (R102). -/
def State.appendAll (s : State) (p : List Byte) : State := p.foldl (fun t b => t.append b) s

/-- The two-sided encoding of a payload, received by a decoder with no escape open and no message pending, appends the
payload's bytes and ends the frame. -/
theorem runs_frameScript (hm : s.dec.decMode = .norm) (hp : s.dec.msgPend = false) (p : List Byte)
    (more : List Line) :
    runs (frameScript p).length (s.withScript (frameScript p ++ more)) =
      .next ((s.appendAll p).withScript more).endFrame := by
  induction p generalizing s with
  | nil => exact (runs_one _).trans (step_rxLine_term hm hp more)
  | cons d p ih =>
    have hsplit : frameScript (d :: p) = rxScript (escape .twoSided d) ++ frameScript p := by
      rw [frameScript, refEncode_cons, rxScript, List.map_append]
      rfl
    have hbyte := runs_rx_escape hm hp d (frameScript p ++ more)
    have hrest := ih (s := s.append d) (by simpa using hm) (by simpa using hp)
    rw [hsplit, List.length_append, List.append_assoc, rxScript, List.length_map]
    exact runs_add hbyte hrest

/-- Three bytes appended to an empty frame are its length and its captured bytes. -/
theorem appendAll_three (hc : s.dec.decCnt = 0#2) (a b c : Byte) :
    s.appendAll [a, b, c] =
      { s with
        dec := { s.dec with decCnt := 3#2, decB := #v[a, b, c] }
        decOut := s.decOut ++ [fbyte a, fbyte b, fbyte c] } := by
  have hstored : ((s.dec.decB.set 0 a).set 1 b).set 2 c = #v[a, b, c] := by
    ext i hi
    interval_cases i <;> simp
  simp [State.appendAll, State.append_eq, Dec.store_decB, hc, satInc, hstored]

/-- A full frame with a known address becomes the pending message (R143). -/
theorem endFrame_of_known (hc : s.dec.decCnt = 3#2) (ha : s.dec.decB[0] ∈ s.params.addrKeys) :
    s.endFrame =
      { s with
        dec := { s.dec with
          decCnt := 0#2
          cntFrames := s.dec.cntFrames + 1
          cntOk := s.dec.cntOk + 1
          msgPend := true
          msgAddr := s.dec.decB[0]
          msgVal := valueOf s.dec.decB[1] s.dec.decB[2] }
        decOut := s.decOut ++ [fend] } := by
  rcases endFrame_cases s with ⟨hshort, -⟩ | ⟨-, hunknown, -⟩ | ⟨-, -, he⟩
  · simp [hc] at hshort
  · simp [(addrValid_iff _ _).mpr ha] at hunknown
  · exact he

end Sys2Proof.Machine

namespace Sys2Proof.Proofs

open Machine

/-- Settles O54: the frame received is `A`, the high byte and the low byte of `V`, so its end accepts it. -/
theorem msgFrameBecomesTheMessage : Obligations.MsgFrameBecomesTheMessage := by
  intro s a v more hm hc hp ha hs
  have hrun := runs_frameScript hm hp [a, v.extractLsb' 8 8, v.extractLsb' 0 8] more
  have hself : s.withScript (frameScript [a, v.extractLsb' 8 8, v.extractLsb' 0 8] ++ more) = s := by
    rw [← msgframeScript, ← hs]
    rfl
  rw [hself, appendAll_three hc, endFrame_of_known rfl ha] at hrun
  refine ⟨_, hrun, rfl, rfl, BitVec.extractLsb'_append_extractLsb', rfl, ?_, rfl, rfl⟩
  exact List.append_assoc _ _ _

end Sys2Proof.Proofs
end

section
/-! SUPPORT. The rows of the decoder's operations as statements about whole states (40_decoder.md R101 to R106). -/

namespace Sys2Proof.Machine

/-- What `Append` leaves, in the terms of R102: the count, each captured byte, and all else by its frame. -/
theorem append_spec (b : Byte) (s : State) :
    (s.append b).dec.decCnt.toNat = min (s.dec.decCnt.toNat + 1) 3 ∧
      (∀ i (h : i < 3), (s.append b).dec.decB[i] = if i = s.dec.decCnt.toNat then b else s.dec.decB[i]) ∧
      s.append b = { s with
        dec := { s.dec with decCnt := (s.append b).dec.decCnt, decB := (s.append b).dec.decB }
        decOut := s.decOut ++ [fbyte b] } := by
  rw [State.append_eq]
  exact ⟨satInc_toNat _, Dec.store_getElem b s.dec, rfl⟩

theorem malformedInfo_truncated (n : BitVec 2) : malformedInfo subTruncated n = 0x40#8 ||| n.setWidth 8 := by
  revert n
  decide

theorem malformedInfo_danglingEsc (n : BitVec 2) : malformedInfo subDanglingEsc n = 0x80#8 ||| n.setWidth 8 := by
  revert n
  decide

/-- DEC_CLOSE reports TransportClosed after the abort and leaves no frame in flight (R106). -/
theorem opEffect_decClose (s : State) :
    s.opEffect .decClose = { s.abortFrame with
      dec := { s.abortFrame.dec with decMode := .norm, decCnt := 0#2 }
      decOut := s.abortFrame.decOut ++ [.err 0b011#3 0x00#8] } := rfl

end Sys2Proof.Machine

namespace Sys2Proof.Proofs

open Machine

/-- Settles O3: the condition of DEC_DATA holds, and its effect is `Append`. -/
theorem decDataAppendsTheByte : Obligations.DecDataAppendsTheByte := by
  intro s b hm hp hesc hterm
  have hen : s.opEnabled (.decData b) = true :=
    Bool.and_eq_true_iff.mpr ⟨(s.byteEnabled_iff .norm).mpr ⟨hp, hm⟩, (isPlain_iff b).mpr ⟨hesc, hterm⟩⟩
  exact ⟨s.append b, exec_of_opEnabled hen, append_spec b s⟩

/-- Settles O4: the condition of DEC_ESC holds, and its effect writes `dec_mode`. -/
theorem decEscOpensAnEscape : Obligations.DecEscOpensAnEscape :=
  fun s hm hp => exec_of_opEnabled (i := .decEsc) ((s.byteEnabled_iff .norm).mpr ⟨hp, hm⟩)

/-- Settles O5: DEC_LIT has no operand range; its effect is `Append`, and then the escape is closed. -/
theorem decLitAppendsAnyByte : Obligations.DecLitAppendsAnyByte := by
  intro s b hm hp
  obtain ⟨hcnt, hbytes, happend⟩ := append_spec b s
  refine ⟨_, exec_of_opEnabled (i := .decLit b) ((s.byteEnabled_iff .escd).mpr ⟨hp, hm⟩), hcnt, hbytes, ?_⟩
  rw [State.opEffect, happend]
  rfl

/-- Settles O9: each outcome of `Interpret` has its own events after FEND; a received `0xFF` ends the frame unless an
escape is open (R72). -/
theorem everyTerminatorEndsTheFrame : Obligations.EveryTerminatorEndsTheFrame := by
  refine ⟨fun s hm hp => ?frame, fun _ hm => State.instrOf_rx_of_norm hm _, fun _ hm => State.instrOf_rx_of_escd hm _⟩
  have hnone : ¬s.dec.msgPend = true := by simp [hp]
  have hexec : exec .decTerm s = .next s.endFrame :=
    exec_of_opEnabled (i := .decTerm) ((s.byteEnabled_iff .norm).mpr ⟨hp, hm⟩)
  rw [hexec]
  rcases endFrame_cases s with ⟨-, he⟩ | ⟨-, -, he⟩ | ⟨-, -, he⟩ <;> rw [he]
  case inl | inr.inl =>
    exact ⟨_, _, rfl, rfl, Nat.le_refl 1, (absurd · hnone), rfl, rfl, hm, rfl⟩
  case inr.inr => exact ⟨_, [], rfl, rfl, Nat.zero_le 1, fun _ => rfl, rfl, rfl, hm, rfl⟩

/-- Settles O10: DEC_CLOSE is enabled in every state, and which abort it reports is the case of `abortFrame`. -/
theorem closeAbortsTheFrameInFlight : Obligations.CloseAbortsTheFrameInFlight := by
  intro s
  rw [exec_of_opEnabled (i := .decClose) rfl, opEffect_decClose]
  rcases abortFrame_cases s with ⟨hm, he⟩ | ⟨hm, hc, he⟩ | ⟨hm, hc, he⟩ <;> rw [he]
  · simp [hm, fabort, malformedInfo_danglingEsc]
  · have hne : s.dec.decCnt ≠ 0#2 := by bv_omega
    simp [hm, hne, fabort, malformedInfo_truncated]
  · simp [hm, hc]

end Sys2Proof.Proofs
end

section
/-! SUPPORT. A step with no enabled action (R110, R215): it finds no line, or a `take` or `lit` that is no step. -/

namespace Sys2Proof.Machine

variable {s : State}

theorem State.pick_eq_none {script : List Line} (h : ∀ x ∈ script, s.held x = true) : s.pick script = none := by
  induction script with
  | nil => rfl
  | cons x xs ih =>
    obtain ⟨hx, hxs⟩ := List.forall_mem_cons.mp h
    simp [State.pick, hx, ih hxs]

/-- A step that finds no line answers the same state (log 14). -/
theorem step_of_fetch_eq_none (h : s.fetch = none) : step s = .next s := by
  rw [step, State.stepOnce, h]

/-- A line that neither waits nor is enabled is a `take` without a message or a `lit` without a literal (log 3). -/
theorem eq_take_or_lit_of_not_held {l : Line} (hheld : s.held l = false) (hen : s.lineEnabled l = false) :
    (l = .act .take ∧ s.opEnabled .msgTake = false) ∨ (l = .act .lit ∧ s.opEnabled .encLit = false) := by
  rcases l with (b | _ | _ | y | _ | _) | v
  case act.rx => simp_all [State.held, State.lineEnabled]
  case act.tin => simp_all [State.held, State.lineEnabled]
  case act.take => exact .inl ⟨rfl, hen⟩
  case act.lit => exact .inr ⟨rfl, hen⟩
  all_goals nomatch hen

end Sys2Proof.Machine

namespace Sys2Proof.Proofs

open Machine

/-- Settles O26: the line fetched, if there is one, is a `take` or a `lit` that is no step, and neither brings a byte
or a symbol. -/
theorem nothingChangesWithoutAnEnabledAction : Obligations.NothingChangesWithoutAnEnabledAction := by
  refine ⟨fun s h => step_of_fetch_eq_none (State.pick_eq_none h), fun s hnone => ?_⟩
  cases hf : s.fetch with
  | none => exact ⟨s.script, step_of_fetch_eq_none hf, rfl, rfl⟩
  | some p =>
    obtain ⟨l, more⟩ := p
    obtain ⟨front, rest, hs, rfl, hfront, hl⟩ := State.pick_eq_some hf
    have hstep := heldLinesStayOffered s front l rest hs hfront hl
    refine ⟨front ++ rest, ?_⟩
    rw [hstep, hs, rxBytes_append, rxBytes_append, tinSyms_append, tinSyms_append]
    rcases eq_take_or_lit_of_not_held hl (hnone l (by simp [hs])) with ⟨rfl, hdis⟩ | ⟨rfl, hdis⟩
    · exact ⟨exec_of_not_opEnabled (i := .msgTake) hdis, rfl, rfl⟩
    · exact ⟨exec_of_not_opEnabled (i := .encLit) hdis, rfl, rfl⟩

end Sys2Proof.Proofs
end

section
/-! SUPPORT. The decoder against `Decode` (R108), byte by byte: a relation between the variables of its loop and the
state, kept by every byte followed by a `take`. -/

namespace Sys2Proof.Machine

variable {s t u : State} {acc : DecodeAcc}

/-- DEC holds the saturated length and the first bytes of the frame `cur` (R24, R25). -/
def Dec.Captures (d : Dec) (cur : List Byte) : Prop :=
  d.decCnt.toNat = min cur.length 3 ∧ ∀ i (h : i < 3) (h' : i < cur.length), d.decB[i] = cur[i]

/-- An empty frame has no captured byte. -/
theorem Dec.captures_nil {d : Dec} (h : d.decCnt = 0#2) : d.Captures [] :=
  ⟨by simp [h], nofun⟩

theorem Dec.Captures.append {d : Dec} {cur : List Byte} (h : d.Captures cur) (b : Byte) :
    (d.append b).Captures (cur ++ [b]) := by
  obtain ⟨hcnt, hbytes⟩ := h
  refine ⟨?_, fun i hi hlen => ?_⟩
  · rw [Dec.append, satInc_toNat, hcnt, List.length_append, List.length_singleton]
    omega
  · have hget : (d.append b).decB[i] = if i = d.decCnt.toNat then b else d.decB[i] := d.store_getElem b i hi
    rw [List.length_append, List.length_singleton] at hlen
    rw [hget]
    by_cases hlast : i < cur.length
    · rw [if_neg (by omega), List.getElem_append_left hlast, hbytes i hi hlast]
    · obtain rfl : i = cur.length := by omega
      rw [if_pos (by omega), List.getElem_concat_length rfl]

/-- The outcome of a frame of fewer than three bytes, read from DEC. -/
theorem Dec.Captures.outcomeEvents_short {d : Dec} {cur : List Byte} (h : d.Captures cur)
    (hc : d.decCnt.toNat < 3) (p : Params) :
    outcomeEvents p cur = [.err 0b001#3 (malformedInfo subShort d.decCnt), .flush] := by
  have hlen : cur.length < 3 := by have := h.1; omega
  have hcnt : BitVec.ofNat 2 cur.length = d.decCnt := by
    refine BitVec.eq_of_toNat_eq ?_
    rw [BitVec.toNat_ofNat, h.1]
    omega
  rw [← hcnt]
  match cur, hlen with
  | [], _ => rfl
  | [_], _ => rfl
  | [_, _], _ => rfl

/-- The outcome of a frame of three or more bytes, read from DEC. -/
theorem Dec.Captures.outcomeEvents_full {d : Dec} {cur : List Byte} (h : d.Captures cur)
    (hc : ¬ d.decCnt.toNat < 3) (p : Params) :
    outcomeEvents p cur =
      if addrValid p d.decB[0] then [.msg d.decB[0] (valueOf d.decB[1] d.decB[2])] else [.err 0b010#3 d.decB[0]] := by
  obtain ⟨hcnt, hbytes⟩ := h
  match cur, hcnt, hbytes with
  | [], hcnt, _ => simp [hcnt] at hc
  | [_], hcnt, _ => simp [hcnt] at hc
  | [_, _], hcnt, _ => simp [hcnt] at hc
  | a :: hi :: lo :: more, _, hbytes =>
    have ha : d.decB[0] = a := hbytes 0 (by decide) (by simp)
    have hhi : d.decB[1] = hi := hbytes 1 (by decide) (by simp)
    have hlo : d.decB[2] = lo := hbytes 2 (by decide) (by simp)
    rw [ha, hhi, hlo]
    rfl

/-- The message taken, if one is pending (R146; log 3). -/
def State.taken (s : State) : State := if s.dec.msgPend then s.opEffect .msgTake else s

theorem State.taken_of_none (hp : s.dec.msgPend = false) : s.taken = s := by
  simp [State.taken, hp]

theorem exec_msgTake (s : State) : exec .msgTake s = .next s.taken :=
  exec_eq_stepIf .msgTake s

theorem taken_withScript (s : State) (l : List Line) : (s.withScript l).taken = s.taken.withScript l :=
  (apply_ite (State.withScript l) (s.dec.msgPend = true) (s.opEffect .msgTake) s).symm

/-- A `take` line is never held (log 3). -/
theorem step_takeLine (s : State) (more : List Line) :
    step (s.withScript (.act .take :: more)) = .next (s.taken.withScript more) := by
  rw [← taken_withScript]
  exact (step_of_not_held (s := s.withScript (.act .take :: more)) rfl rfl).trans (exec_msgTake (s.withScript more))

theorem interpret_withScript (s : State) (l : List Line) :
    (s.withScript l).interpret = s.interpret.withScript l := by
  rw [State.interpret, State.interpret, apply_ite (State.withScript l), apply_ite (State.withScript l)]
  rfl

/-- The end of a frame does not read the script. -/
theorem endFrame_withScript (s : State) (l : List Line) : (s.withScript l).endFrame = s.endFrame.withScript l := by
  have hint := interpret_withScript ((s.emit fend).withDec { s.dec with cntFrames := s.dec.cntFrames + 1 }) l
  exact congrArg (fun t : State => t.withDec { t.dec with decCnt := 0#2 }) hint

/-- A frame ended and its message taken emit the outcome of the frame (R140, R147). -/
theorem endFrame_taken_eq (hp : s.dec.msgPend = false) {cur : List Byte} (hcap : s.dec.Captures cur) :
    ∃ d : Dec, s.endFrame.taken = { s with dec := d, decOut := s.decOut ++ fend :: outcomeEvents s.params cur } ∧
      d.decMode = s.dec.decMode ∧ d.decCnt = 0#2 ∧ d.msgPend = false := by
  rcases endFrame_cases s with ⟨hc, he⟩ | ⟨hc, hv, he⟩ | ⟨hc, hv, he⟩ <;> rw [he]
  · rw [hcap.outcomeEvents_short hc]
    exact ⟨_, State.taken_of_none hp, rfl, rfl, hp⟩
  · rw [hcap.outcomeEvents_full hc, hv]
    exact ⟨_, State.taken_of_none hp, rfl, rfl, hp⟩
  · rw [hcap.outcomeEvents_full hc, hv, List.append_cons s.decOut fend (ite _ _ _)]
    exact ⟨_, rfl, rfl, rfl, rfl⟩

/-- From the idle state `s` the decoder has come to `t` while the loop of R108 has come to `acc`. -/
structure Tracks (s : State) (acc : DecodeAcc) (t : State) : Prop where
  decOut : t.decOut = s.decOut ++ acc.1.flatMap (frameEvents s.params) ++ acc.2.1.map fbyte
  mode : t.dec.decMode = acc.2.2
  captures : t.dec.Captures acc.2.1
  msgPend : t.dec.msgPend = false
  /-- Nothing but DEC and its events has changed. -/
  frame : t = { s with dec := t.dec, decOut := t.decOut }

variable {frames : List (List Byte)} {cur : List Byte} {m : DecMode}

/-- An idle decoder has seen no byte. -/
theorem tracks_refl (hm : s.dec.decMode = .norm) (hc : s.dec.decCnt = 0#2) (hp : s.dec.msgPend = false) :
    Tracks s ([], [], .norm) s :=
  ⟨by simp, hm, Dec.captures_nil hc, hp, rfl⟩

theorem Tracks.params (h : Tracks s acc t) : t.params = s.params := by rw [h.frame]

theorem Tracks.append (h : Tracks s (frames, cur, m) t) (b : Byte) :
    Tracks s (frames, cur ++ [b], m) (t.append b) where
  decOut := by simp [State.append, h.decOut]
  mode := (append_decMode b t).trans h.mode
  captures := h.captures.append b
  msgPend := (append_msgPend b t).trans h.msgPend
  frame := by rw [State.append, h.frame]; rfl

theorem Tracks.withMode (h : Tracks s (frames, cur, m) t) (m' : DecMode) :
    Tracks s (frames, cur, m') (t.withDec { t.dec with decMode := m' }) where
  decOut := h.decOut
  mode := rfl
  captures := h.captures
  msgPend := h.msgPend
  frame := by rw [h.frame]; rfl

/-- The end of a frame, its message taken, adds the frame to those finished. -/
theorem Tracks.endFrame_taken (h : Tracks s (frames, cur, .norm) t) :
    Tracks s (frames ++ [cur], [], .norm) t.endFrame.taken := by
  obtain ⟨d, he, hm, hc, hp⟩ := endFrame_taken_eq h.msgPend h.captures
  rw [he]
  refine ⟨?_, hm.trans h.mode, Dec.captures_nil hc, hp, ?_⟩
  · simp [h.decOut, h.params, frameEvents]
  · rw [h.frame]

/-- A byte received, and the `take` after it. -/
theorem runs_rx_take {b : Byte} {more : List Line}
    (hstep : step (t.withScript (rxLine b :: .act .take :: more)) = .next (u.withScript (.act .take :: more))) :
    runs 2 (t.withScript (rxLine b :: .act .take :: more)) = .next (u.taken.withScript more) :=
  runs_add (m := 1) ((runs_one _).trans hstep) ((runs_one _).trans (step_takeLine u more))

/-- A state that tracks the loop has no message to take. -/
theorem Tracks.taken (h : Tracks s acc u) : Tracks s acc u.taken := by
  rwa [State.taken_of_none h.msgPend]

/-- A byte and a `take` are one turn of the loop of R108. -/
theorem Tracks.runs_byte_take (h : Tracks s acc t) (b : Byte) (more : List Line) :
    ∃ u, runs 2 (t.withScript (rxLine b :: .act .take :: more)) = .next (u.withScript more) ∧
      Tracks s (decodeTurn acc b) u := by
  obtain ⟨frames, cur, m⟩ := acc
  cases m with
  | escd =>
    exact ⟨_, runs_rx_take (step_rxLine_of_escd h.mode h.msgPend b _), ((h.append b).withMode .norm).taken⟩
  | norm =>
    rw [decodeTurn]
    split_ifs with hesc hterm
    · subst hesc
      exact ⟨_, runs_rx_take (step_rxLine_esc h.mode h.msgPend _), (h.withMode .escd).taken⟩
    · subst hterm
      have hstep := step_rxLine_term h.mode h.msgPend (.act .take :: more)
      rw [endFrame_withScript] at hstep
      exact ⟨_, runs_rx_take hstep, h.endFrame_taken⟩
    · have hplain : isPlain b = true := (isPlain_iff b).mpr ⟨hesc, hterm⟩
      exact ⟨_, runs_rx_take (step_rxLine_of_isPlain h.mode h.msgPend hplain _), (h.append b).taken⟩

/-- A drained byte stream is the loop of R108 over its bytes. -/
theorem Tracks.runs_drainScript (h : Tracks s acc t) (bytes : List Byte) (more : List Line) :
    ∃ u, runs (drainScript bytes).length (t.withScript (drainScript bytes ++ more)) = .next (u.withScript more) ∧
      Tracks s (bytes.foldl decodeTurn acc) u := by
  induction bytes generalizing acc t with
  | nil => exact ⟨t, rfl, h⟩
  | cons b bytes ih =>
    obtain ⟨v, hbyte, hv⟩ := h.runs_byte_take b (drainScript bytes ++ more)
    obtain ⟨u, hrest, hu⟩ := ih hv
    have hlen : (drainScript (b :: bytes)).length = 2 + (drainScript bytes).length := Nat.add_comm _ 2
    rw [hlen]
    exact ⟨u, runs_add hbyte hrest, hu⟩

end Sys2Proof.Machine

namespace Sys2Proof.Proofs

open Machine

/-- Settles O44: the idle decoder tracks the loop of R108 from its start, and every byte with its `take` is one turn. -/
theorem decoderRefinesDecode : Obligations.DecoderRefinesDecode := by
  intro s bytes more hm hc hp hs
  obtain ⟨u, hrun, hu⟩ := (tracks_refl hm hc hp).runs_drainScript bytes more
  rw [← hs] at hrun
  obtain ⟨hcnt, hbytes⟩ := hu.captures
  refine ⟨u.withScript more, hrun, hu.decOut, hu.mode, hcnt, hbytes, hu.msgPend, rfl, ?_, ?_, ?_, hu.params⟩
  all_goals
    rw [hu.frame]
    rfl

end Sys2Proof.Proofs
end

section
/-! SUPPORT. The outcomes of a terminator (R141, R142; R143 is `endFrame_of_known`), each under the condition that
selects it. -/

namespace Sys2Proof.Machine

variable {s : State}

/-- DEC_TERM exists in NORM with no message pending, and ends the frame (R105). -/
theorem exec_decTerm_of_norm (hm : s.dec.decMode = .norm) (hp : s.dec.msgPend = false) :
    exec .decTerm s = .next s.endFrame :=
  exec_of_opEnabled (i := .decTerm) ((s.byteEnabled_iff .norm).mpr ⟨hp, hm⟩)

theorem malformedInfo_short (n : BitVec 2) : malformedInfo subShort n = n.setWidth 8 := by
  revert n
  decide

/-- A frame of fewer than three bytes is rejected by its length, whatever its address (R141). -/
theorem endFrame_of_short (hc : s.dec.decCnt.toNat < 3) :
    s.endFrame =
      { s with
        dec := { s.dec with
          decCnt := 0#2
          cntFrames := s.dec.cntFrames + 1
          cntMalformed := s.dec.cntMalformed + 1 }
        decOut := s.decOut ++ [fend, .err 0b001#3 (s.dec.decCnt.setWidth 8), .flush] } := by
  rcases endFrame_cases s with ⟨-, he⟩ | ⟨hfull, -, -⟩ | ⟨hfull, -, -⟩
  · rw [he, malformedInfo_short]
  · exact absurd hc hfull
  · exact absurd hc hfull

/-- A full frame with an address outside the table is rejected by its address (R142). -/
theorem endFrame_of_unknown (hc : s.dec.decCnt = 3#2) (ha : s.dec.decB[0] ∉ s.params.addrKeys) :
    s.endFrame =
      { s with
        dec := { s.dec with
          decCnt := 0#2
          cntFrames := s.dec.cntFrames + 1
          cntUnknown := s.dec.cntUnknown + 1 }
        decOut := s.decOut ++ [fend, .err 0b010#3 s.dec.decB[0]] } := by
  rcases endFrame_cases s with ⟨hshort, -⟩ | ⟨-, -, he⟩ | ⟨-, hknown, -⟩
  · simp [hc] at hshort
  · exact he
  · exact absurd ((addrValid_iff _ _).mp hknown) ha

end Sys2Proof.Machine

namespace Sys2Proof.Proofs

open Machine

/-- Settles O41: the length, and for a full frame the address, select the same outcome in both states, and each outcome
reads captured bytes only. A short frame reads none, so the bytes from `dec_cnt` on may differ. -/
theorem outcomeDependsOnFirstThreeBytes : Obligations.OutcomeDependsOnFirstThreeBytes := by
  intro s₁ s₂ hm₁ hm₂ hp₁ hp₂ hcnt hbytes hkeys
  rw [exec_decTerm_of_norm hm₁ hp₁, exec_decTerm_of_norm hm₂ hp₂]
  have hpend : s₁.dec.msgPend = s₂.dec.msgPend := hp₁.trans hp₂.symm
  have hnone : ¬s₁.dec.msgPend = true := by simp [hp₁]
  by_cases hshort : s₁.dec.decCnt.toNat < 3
  · rw [endFrame_of_short hshort, endFrame_of_short (hcnt ▸ hshort), ← hcnt]
    exact ⟨_, _, _, rfl, rfl, rfl, rfl, hpend, (absurd · hnone)⟩
  · have hc₁ : s₁.dec.decCnt = 3#2 := by bv_omega
    have hc₂ : s₂.dec.decCnt = 3#2 := hcnt.symm.trans hc₁
    have hbyte : ∀ i (h : i < 3), s₁.dec.decB[i] = s₂.dec.decB[i] :=
      fun i h => hbytes i h (h.trans_le (Nat.le_of_not_lt hshort))
    have h0 : s₁.dec.decB[0] = s₂.dec.decB[0] := hbyte 0 (by decide)
    by_cases ha : s₁.dec.decB[0] ∈ s₁.params.addrKeys
    · rw [endFrame_of_known hc₁ ha, endFrame_of_known hc₂ (h0 ▸ hkeys ▸ ha)]
      have hval : valueOf s₁.dec.decB[1] s₁.dec.decB[2] = valueOf s₂.dec.decB[1] s₂.dec.decB[2] :=
        congrArg₂ valueOf (hbyte 1 (by decide)) (hbyte 2 (by decide))
      exact ⟨_, _, _, rfl, rfl, rfl, rfl, rfl, fun _ => ⟨h0, hval⟩⟩
    · rw [endFrame_of_unknown hc₁ ha, endFrame_of_unknown hc₂ (h0 ▸ hkeys ▸ ha), ← h0]
      exact ⟨_, _, _, rfl, rfl, rfl, rfl, hpend, (absurd · hnone)⟩

/-- Settles O6: the length is read before the address, so the short outcome asks nothing of the table. -/
theorem decTermRejectsAShortFrame : Obligations.DecTermRejectsAShortFrame := by
  intro s hm hp hshort
  rw [exec_decTerm_of_norm hm hp, endFrame_of_short hshort]
  rfl

/-- Settles O7: a full frame whose address is outside the table has the unknown outcome. -/
theorem decTermRejectsAnUnknownAddress : Obligations.DecTermRejectsAnUnknownAddress := by
  intro s hm hp hc ha
  rw [exec_decTerm_of_norm hm hp, endFrame_of_unknown hc ha]
  rfl

/-- Settles O8: a full frame whose address is in the table is accepted, and its value is the shift-and-or form of R76. -/
theorem decTermAcceptsAMessage : Obligations.DecTermAcceptsAMessage := by
  intro s hm hp hc ha
  rw [exec_decTerm_of_norm hm hp, endFrame_of_known hc ha, valueOf_eq_shift]
  rfl

/-- Settles O11: a pending message is the whole condition of MSG_TAKE. -/
theorem takeTransfersTheMessage : Obligations.TakeTransfersTheMessage :=
  fun _ hp => exec_of_opEnabled (i := .msgTake) hp

end Sys2Proof.Proofs
end

section
/-! SUPPORT. Decode (R108) over what Encode (R177) sends. A byte is read back when it is sent escaped or is plain: under
`TWO_SIDED` every byte is, under `TERM_ONLY` every byte but `0xFE` (R178, R179). -/

namespace Sys2Proof.Machine

/-- The byte `d`, sent in the mode `m`, is read back as itself. -/
def ReadsBack (m : EscMode) (d : Byte) : Prop := resv m d = true ∨ isPlain d = true

theorem readsBack_twoSided (d : Byte) : ReadsBack .twoSided d := by
  rw [ReadsBack, resv_twoSided]
  cases isPlain d <;> decide

theorem readsBack_termOnly {d : Byte} (h : d ≠ 0xFE#8) : ReadsBack .termOnly d := by
  by_cases hterm : d = 0xFF#8
  · exact .inl ((resv_iff .termOnly d).mpr (.inl hterm))
  · exact .inr ((isPlain_iff d).mpr ⟨h, hterm⟩)

theorem readsBack_termOnly_of_notMem {p : List Byte} (h : 0xFE#8 ∉ p) : ∀ d ∈ p, ReadsBack .termOnly d :=
  fun _ hd => readsBack_termOnly (ne_of_mem_of_not_mem hd h)

theorem refEncode_eq (m : EscMode) (p : List Byte) : refEncode m p = p.flatMap (escape m) ++ [Config.TERM] := rfl

theorem refEncode_append (m : EscMode) (p r : List Byte) :
    refEncode m (p ++ r) = p.flatMap (escape m) ++ refEncode m r := by
  rw [refEncode_eq, refEncode_eq, List.flatMap_append, List.append_assoc]

variable {m : EscMode} {p : List Byte} (frames : List (List Byte)) (cur : List Byte)

/-- What is sent for a byte is an item of the wire grammar, so Decode adds its value to the current frame. -/
theorem foldl_decodeTurn_escape {d : Byte} (h : ReadsBack m d) :
    (escape m d).foldl decodeTurn (frames, cur, .norm) = (frames, cur ++ [d], .norm) := by
  rw [escape]
  split_ifs with hresv
  · exact foldl_decodeTurn_item (i := .esc d) rfl frames cur
  · exact foldl_decodeTurn_item (i := .plain d) (h.resolve_left hresv) frames cur

theorem foldl_decodeTurn_flatMap_escape (h : ∀ d ∈ p, ReadsBack m d) :
    (p.flatMap (escape m)).foldl decodeTurn (frames, cur, .norm) = (frames, cur ++ p, .norm) := by
  induction p generalizing cur with
  | nil => simp
  | cons d p ih =>
    obtain ⟨hd, hp⟩ := List.forall_mem_cons.mp h
    rw [List.flatMap_cons, List.foldl_append, foldl_decodeTurn_escape frames cur hd, ih _ hp, ← List.append_cons]

/-- The terminator of an encoded payload ends the frame that holds it. -/
theorem foldl_decodeTurn_refEncode (h : ∀ d ∈ p, ReadsBack m d) :
    (refEncode m p).foldl decodeTurn (frames, cur, .norm) = (frames ++ [cur ++ p], [], .norm) := by
  rw [refEncode_eq, List.foldl_append, foldl_decodeTurn_flatMap_escape frames cur h]
  rfl

theorem refDecode_refEncode (h : ∀ d ∈ p, ReadsBack m d) : refDecode (refEncode m p) = ([p], [], .norm) :=
  foldl_decodeTurn_refEncode [] [] h

theorem foldl_decodeTurn_payloads (ps : List (List Byte)) :
    (ps.flatMap (refEncode .twoSided)).foldl decodeTurn (frames, [], .norm) = (frames ++ ps, [], .norm) := by
  induction ps generalizing frames with
  | nil => simp
  | cons p ps ih =>
    rw [List.flatMap_cons, List.foldl_append,
      foldl_decodeTurn_refEncode frames [] fun d _ => readsBack_twoSided d, ih, List.nil_append, ← List.append_cons]

/-- A stream that decodes to one frame is the wire form of that frame's items and a terminator. -/
theorem exists_items_of_refDecode {bytes : List Byte} (h : refDecode bytes = ([p], [], .norm)) :
    ∃ items : List Item, (∀ i ∈ items, i.ok = true) ∧ items.map Item.value = p ∧
      bytes = items.flatMap Item.wire ++ [Config.TERM] := by
  have hwire := wire_parseBytes bytes
  have hok := parseBytes_ok bytes
  generalize parseBytes bytes = parse at hwire hok
  subst hwire
  rw [Proofs.parseGivesTheDecodedFrames parse hok] at h
  obtain ⟨fs, rest, dangling⟩ := parse
  obtain ⟨hfs, hrest, hdangling⟩ :
      fs.map (fun f => f.map Item.value) = [p] ∧ rest.map Item.value = [] ∧ dangling = false := by simpa using h
  obtain ⟨items, rfl, hp⟩ := List.map_eq_singleton_iff.mp hfs
  obtain rfl := List.map_eq_nil_iff.mp hrest
  subst hdangling
  exact ⟨items, by simpa [Parse.ok] using hok, hp, by simp [Parse.wire]⟩

/-- A value that is not plain costs an escape on the wire. -/
theorem Item.le_length_wire {i : Item} (h : i.ok = true) :
    (if resv .twoSided i.value = true then 1 else 0) + 1 ≤ i.wire.length := by
  cases i with
  | plain b =>
    have hnot : resv .twoSided (Item.plain b).value = false := resv_of_isPlain .twoSided b h
    rw [hnot]
    exact Nat.le_refl 1
  | esc b =>
    have hlen : (Item.esc b).wire.length = 2 := rfl
    split_ifs <;> omega

theorem le_length_flatMap_wire {items : List Item} (h : ∀ i ∈ items, i.ok = true) :
    items.length + (items.map Item.value).countP (resv .twoSided) ≤ (items.flatMap Item.wire).length := by
  induction items with
  | nil => exact Nat.le_refl 0
  | cons i items ih =>
    obtain ⟨hi, hitems⟩ := List.forall_mem_cons.mp h
    have hitem := Item.le_length_wire hi
    have hrest := ih hitems
    rw [List.flatMap_cons, List.length_append, List.map_cons, List.countP_cons, List.length_cons]
    omega

theorem countP_resv_twoSided (p : List Byte) :
    p.countP (resv .twoSided) = p.countP (resv .termOnly) + p.count 0xFE#8 := by
  induction p with
  | nil => rfl
  | cons d p ih =>
    have hbyte : ∀ d : Byte, (if resv .twoSided d = true then 1 else 0) =
        (if resv .termOnly d = true then 1 else 0) + if (d == 0xFE#8) = true then 1 else 0 := by decide
    rw [List.countP_cons, List.countP_cons, List.count_cons, ih, hbyte d]
    omega

/-- A stream that decodes to a payload as its one frame has an escape for every byte that is not plain. -/
theorem le_length_of_refDecode {bytes : List Byte} (h : refDecode bytes = ([p], [], .norm)) :
    p.length + p.countP (resv .twoSided) + 1 ≤ bytes.length := by
  obtain ⟨items, hok, rfl, rfl⟩ := exists_items_of_refDecode h
  simpa using le_length_flatMap_wire hok

end Sys2Proof.Machine

namespace Sys2Proof.Proofs

open Machine

/-- Settles O46: by induction over the payloads, each of which Decode reads back as one frame. -/
theorem twoSidedRoundTrip : Obligations.TwoSidedRoundTrip := foldl_decodeTurn_payloads []

/-- Settles O47: without `0xFE` every byte is read back. A stream that decodes to the payload has an escape for each
`0xFE` in it, and the terminator-only encoding is shorter than that by the number of them (R86). -/
theorem termOnlyRoundTripIffNoEscape : Obligations.TermOnlyRoundTripIffNoEscape := by
  refine fun p => ⟨fun h => ?_, fun h => refDecode_refEncode (readsBack_termOnly_of_notMem h)⟩
  have hlong := le_length_of_refDecode h
  rw [encodedLength, countP_resv_twoSided] at hlong
  exact List.count_eq_zero.mp (by omega)

/-- Settles O48: Decode holds `q` when it reads the raw `0xFE` as an escape, which makes the next byte sent a literal:
of `x`, of the escape before `0xFF`, or of the terminator. -/
theorem termOnlyMisdecodings : Obligations.TermOnlyMisdecodings := by
  intro q r hq hr
  have hread := foldl_decodeTurn_flatMap_escape [] [] (readsBack_termOnly_of_notMem hq)
  have hrest := fun frames cur => foldl_decodeTurn_refEncode frames cur (readsBack_termOnly_of_notMem hr)
  refine ⟨fun x hx => ?plain, ?term, ?last⟩
  case plain =>
    have hraw : escape .termOnly x = [x] := by simp [escape, resv, Config.TERM, hx]
    rw [refDecode, List.append_assoc, refEncode_append, refEncode_append, List.foldl_append, List.foldl_append,
      hread, List.flatMap_cons, List.flatMap_singleton, hraw]
    exact hrest [] (q ++ [x])
  case term =>
    rw [refDecode, List.append_assoc, refEncode_append, refEncode_append, List.foldl_append, List.foldl_append,
      hread]
    exact hrest [q ++ [0xFE#8]] []
  case last =>
    rw [refDecode, refEncode_append, List.foldl_append, hread]
    rfl

end Sys2Proof.Proofs
end

section
/-! SUPPORT. The rows of the encoder's operations as statements about whole states (42_encoder.md R171 to R176). -/

namespace Sys2Proof.Machine

/-- With both handshakes ENC_PLAIN sends a byte that the mode does not reserve (R171). -/
theorem exec_encPlain_of_not_resv {s : State} {d : Byte} (hnone : s.enc.encPendV = false) (htx : s.txReady = true)
    (hd : resv s.params.escMode d = false) :
    exec (.encPlain d) s = .next { s with enc := { s.enc with encBusy := true }, txOut := s.txOut ++ [d] } :=
  exec_of_opEnabled (i := .encPlain d)
    (Bool.and_eq_true_iff.mpr ⟨s.tinEnabled_iff.mpr ⟨hnone, htx⟩, (Bool.not_eq_true' _).mpr hd⟩)

end Sys2Proof.Machine

namespace Sys2Proof.Proofs

open Machine

/-- Settles O12: the byte is neither of the two that a mode can reserve, or is `0xFE` in the mode that does not. -/
theorem encPlainSendsTheByte : Obligations.EncPlainSendsTheByte := by
  intro s d hnone htx hterm hesc
  refine exec_encPlain_of_not_resv hnone htx ?_
  rw [Bool.eq_false_iff, ne_eq, resv_iff]
  rintro (h | ⟨h, hmode⟩)
  · exact hterm h
  · exact nomatch hmode.symm.trans (hesc h)

/-- Settles O13: with both handshakes the condition of ENC_RESV is its operand range. -/
theorem encResvSendsTheEscape : Obligations.EncResvSendsTheEscape := by
  intro s d hnone htx hd
  exact exec_of_opEnabled (i := .encResv d)
    (Bool.and_eq_true_iff.mpr ⟨s.tinEnabled_iff.mpr ⟨hnone, htx⟩, (resv_iff _ d).mpr hd⟩)

/-- Settles O14: a deferred literal and `tx_ready` are the whole condition of ENC_LIT. -/
theorem encLitSendsTheLiteral : Obligations.EncLitSendsTheLiteral :=
  fun _ hpend htx => exec_of_opEnabled (i := .encLit) (Bool.and_eq_true_iff.mpr ⟨hpend, htx⟩)

/-- Settles O15: ENC_END has no operand range, and its condition does not read `enc_busy` (log 15). -/
theorem encEndSendsTheTerminator : Obligations.EncEndSendsTheTerminator :=
  fun s x hnone htx => exec_of_opEnabled (i := .encEnd x) (s.tinEnabled_iff.mpr ⟨hnone, htx⟩)

/-- Settles O17: the deferred literal of ENC_RESV disables every operation of a payload symbol until ENC_LIT sends it
(log 4). -/
theorem escapeAndLiteralAdjacent : Obligations.EscapeAndLiteralAdjacent := by
  intro s d hnone htx hd
  obtain ⟨-, -, -, -, hplain, hresv, hend, -⟩ := disabledOperationsHold
  refine ⟨_, encResvSendsTheEscape s d hnone htx ((resv_iff _ d).mp hd), rfl,
    fun x => ⟨hplain _ x (.inl rfl), hresv _ x (.inl rfl), hend _ x (.inl rfl)⟩,
    _, encLitSendsTheLiteral _ rfl htx, List.append_assoc _ _ _, rfl, rfl⟩

/-- Settles O38: an operation holds, or has the effect whose frame is its agent's. -/
theorem agentsChangeOnlyThemselves : Obligations.AgentsChangeOnlyThemselves := by
  refine ⟨fun i s t hdec h => ?dec, fun i s t henc h => ?enc⟩
  case dec =>
    rcases exec_cases h with ⟨-, rfl⟩ | ⟨-, rfl⟩
    · exact opEffect_dec_frame hdec s
    · rfl
  case enc =>
    rcases exec_cases h with ⟨-, rfl⟩ | ⟨-, rfl⟩
    · exact opEffect_enc_frame henc s
    · rfl

end Sys2Proof.Proofs
end

section
/-! SUPPORT. The encoder against Encode (R177), byte by byte: the lines that present one payload byte send its escaped
form, and while `tx_ready` is 0 every line of an encode script is held (log 2). -/

namespace Sys2Proof.Machine

variable {s : State}

/-- The state `s` after ENC has sent `out`, with its elements at `e`. -/
def State.sent (s : State) (e : Enc) (out : List Byte) : State := { s with enc := e, txOut := s.txOut ++ out }

theorem State.sent_sent (s : State) (e₁ e₂ : Enc) (out₁ out₂ : List Byte) :
    (s.sent e₁ out₁).sent e₂ out₂ = s.sent e₂ (out₁ ++ out₂) := by
  simp [State.sent]

/-- The lines that present one payload byte: its symbol, and a `lit` if it is reserved (R89). -/
def escapeScript (m : EscMode) (d : Byte) : List Line := tinLine d :: (if resv m d then [.act .lit] else [])

theorem encodeScript_cons (m : EscMode) (d : Byte) (p : List Byte) :
    encodeScript m (d :: p) = escapeScript m d ++ encodeScript m p := by
  simp [encodeScript, escapeScript]

/-- A symbol presented with both handshakes is taken. -/
theorem step_tin (hnone : s.enc.encPendV = false) (htx : s.txReady = true) (y : Sym9) (more : List Line) :
    step (s.withScript (.act (.tin y) :: more)) = exec (decodeTin s.params.escMode y) (s.withScript more) := by
  obtain ⟨-, htin, -⟩ := Proofs.stepRunsTheDecodedOperation (s.withScript (.act (.tin y) :: more)) more
  exact htin y rfl hnone htx

theorem step_tinLine_of_not_resv (hnone : s.enc.encPendV = false) (htx : s.txReady = true) {d : Byte}
    (hd : resv s.params.escMode d = false) (more : List Line) :
    step (s.withScript (tinLine d :: more)) = .next ((s.sent { s.enc with encBusy := true } [d]).withScript more) := by
  rw [tinLine, step_tin hnone htx, decodeTin_of_not_resv hd]
  exact exec_encPlain_of_not_resv (s := s.withScript more) hnone htx hd

theorem step_tinLine_of_resv (hnone : s.enc.encPendV = false) (htx : s.txReady = true) {d : Byte}
    (hd : resv s.params.escMode d = true) (more : List Line) :
    step (s.withScript (tinLine d :: more)) = .next ((s.sent ⟨true, true, d⟩ [Config.ESC]).withScript more) := by
  rw [tinLine, step_tin hnone htx, decodeTin_of_resv hd]
  exact Proofs.encResvSendsTheEscape (s.withScript more) d hnone htx ((resv_iff _ d).mp hd)

theorem step_endLine (hnone : s.enc.encPendV = false) (htx : s.txReady = true) (more : List Line) :
    step (s.withScript (endLine :: more)) =
      .next ((s.sent { s.enc with encBusy := false } [Config.TERM]).withScript more) := by
  rw [endLine, step_tin hnone htx, decodeTin_mkSym_one]
  exact Proofs.encEndSendsTheTerminator (s.withScript more) 0x00#8 hnone htx

theorem step_litLine (hpend : s.enc.encPendV = true) (htx : s.txReady = true) (more : List Line) :
    step (s.withScript (.act .lit :: more)) =
      .next ((s.sent { s.enc with encPendV := false } [s.enc.encPendB]).withScript more) := by
  obtain ⟨-, -, hlit, -⟩ := Proofs.stepRunsTheDecodedOperation (s.withScript (.act .lit :: more)) more
  exact (hlit rfl htx).trans (Proofs.encLitSendsTheLiteral (s.withScript more) hpend htx)

/-- The lines of one payload byte send its escaped form and leave no literal deferred. -/
theorem runs_escapeScript (hnone : s.enc.encPendV = false) (htx : s.txReady = true) (d : Byte) (more : List Line) :
    ∃ e : Enc, e.encPendV = false ∧
      runs (escapeScript s.params.escMode d).length (s.withScript (escapeScript s.params.escMode d ++ more)) =
        .next ((s.sent e (escape s.params.escMode d)).withScript more) := by
  rw [escapeScript, escape]
  split_ifs with hd
  · have hesc := step_tinLine_of_resv hnone htx hd (.act .lit :: more)
    have hlit := step_litLine (s := s.sent ⟨true, true, d⟩ [Config.ESC]) rfl htx more
    rw [State.sent_sent] at hlit
    exact ⟨_, rfl, runs_add (m := 1) ((runs_one _).trans hesc) ((runs_one _).trans hlit)⟩
  · have hplain := step_tinLine_of_not_resv hnone htx (Bool.eq_false_iff.mpr hd) more
    exact ⟨{ s.enc with encBusy := true }, hnone, (runs_one _).trans hplain⟩

/-- An encode script sends the encoding of its payload and leaves the encoder idle (R177). -/
theorem runs_encodeScript (hnone : s.enc.encPendV = false) (htx : s.txReady = true) (p : List Byte)
    (more : List Line) :
    ∃ e : Enc, e.encBusy = false ∧ e.encPendV = false ∧
      runs (encodeScript s.params.escMode p).length (s.withScript (encodeScript s.params.escMode p ++ more)) =
        .next ((s.sent e (refEncode s.params.escMode p)).withScript more) := by
  induction p generalizing s with
  | nil => exact ⟨{ s.enc with encBusy := false }, rfl, hnone, (runs_one _).trans (step_endLine hnone htx more)⟩
  | cons d p ih =>
    obtain ⟨e₁, hnone₁, hbyte⟩ := runs_escapeScript hnone htx d (encodeScript s.params.escMode p ++ more)
    obtain ⟨e₂, hidle, hnone₂, hrest⟩ := ih (s := s.sent e₁ (escape s.params.escMode d)) hnone₁ htx
    rw [State.sent_sent] at hrest
    refine ⟨e₂, hidle, hnone₂, ?_⟩
    rw [encodeScript_cons, refEncode_cons, List.length_append, List.append_assoc]
    exact runs_add hbyte hrest

/-- While `tx_ready` is 0 a `tin` line waits, and a `lit` line with it (log 2). -/
theorem held_escapeScript (htx : s.txReady = false) (m : EscMode) (d : Byte) :
    ∀ l ∈ escapeScript m d, s.held l = true := by
  have htin : s.held (tinLine d) = true := by simp [tinLine, State.held, s.tinEnabled_eq_false_iff.mpr (.inr htx)]
  have hlit : s.held (.act .lit) = true := by simp [State.held, htx]
  refine List.forall_mem_cons.mpr ⟨htin, ?_⟩
  split_ifs
  · exact List.forall_mem_singleton.mpr hlit
  · nofun

theorem held_encodeScript (htx : s.txReady = false) (m : EscMode) (p : List Byte) :
    ∀ l ∈ encodeScript m p, s.held l = true := by
  induction p with
  | nil =>
    have hend : s.held endLine = true := by simp [endLine, State.held, s.tinEnabled_eq_false_iff.mpr (.inr htx)]
    exact List.forall_mem_singleton.mpr hend
  | cons d p ih =>
    rw [encodeScript_cons]
    exact List.forall_mem_append.mpr ⟨held_escapeScript htx m d, ih⟩

end Sys2Proof.Machine

namespace Sys2Proof.Proofs

open Machine

/-- Settles O45: the state after the script differs from the one before in ENC's elements and bytes, and the script. -/
theorem encoderRefinesEncode : Obligations.EncoderRefinesEncode := by
  intro s p more hnone htx hs
  obtain ⟨e, hidle, hnone', hrun⟩ := runs_encodeScript hnone htx p more
  rw [← hs] at hrun
  exact ⟨_, hrun, rfl, hidle, hnone', rfl, rfl, rfl, rfl, rfl⟩

/-- Settles O55: every line of the payload is held, so the first step raises `tx_ready`; the script that is left is
that of O45 (log 2, log 9). -/
theorem encoderWaitsForTxReady : Obligations.EncoderWaitsForTxReady := by
  intro s p more hnone htx hs
  have hraise := heldLinesStayOffered s _ _ more hs (held_encodeScript htx s.params.escMode p) rfl
  obtain ⟨t, hrun, hout, hidle, hnone', hscript, hdec, hdecOut, htx', hparams⟩ :=
    encoderRefinesEncode { s with script := encodeScript s.params.escMode p ++ more, txReady := true } p more
      hnone rfl rfl
  rw [Nat.add_comm]
  exact ⟨t, runs_add ((runs_one s).trans hraise) hrun, hout, hidle, hnone', hscript, hdec, hdecOut, htx', hparams⟩

/-- Settles O49: the encoder sends the encoding of the payload and leaves DEC idle, and that stream decodes to the
payload as its one frame (log 3). -/
theorem loopbackDeliversThePayload : Obligations.LoopbackDeliversThePayload := by
  intro s p hmode hnone htx hm hc hp hempty hs
  obtain ⟨t, hsend, hout, -, -, -, hdec, hdecOut, -, hparams⟩ :=
    encoderRefinesEncode s p [] hnone htx (by rw [hmode, hs, List.append_nil])
  rw [hmode, ← hs] at hsend
  rw [hempty, hmode, List.nil_append] at hout
  obtain ⟨u, hreceive, hevents, hm', hcnt, -⟩ :=
    decoderRefinesDecode { t with script := drainScript t.txOut } t.txOut [] (hdec ▸ hm) (hdec ▸ hc) (hdec ▸ hp)
      (List.append_nil _).symm
  rw [hout, refDecode_refEncode fun d _ => readsBack_twoSided d] at hevents hm' hcnt
  refine ⟨t, hsend, u, hreceive, ?_, hm', BitVec.eq_of_toNat_eq hcnt⟩
  simpa [hdecOut, hparams] using hevents

end Sys2Proof.Proofs
end

section
/-! SUPPORT. No operation, no line of the script and no step stops the block (R107, R175, R200; log 18). -/

namespace Sys2Proof.Machine

/-- Every operation is one conditional step, and a conditional step answers its effect or the same state (log 4). -/
theorem exists_exec_eq_next (i : Instr) (s : State) : ∃ t, exec i s = .next t :=
  ⟨_, exec_eq_stepIf i s⟩

theorem exists_runLine_eq_next (l : Line) (s : State) : ∃ t, runLine l s = .next t := by
  cases l with
  | act a => exact exists_exec_eq_next (s.instrOf a) s
  | txReady v => exact ⟨_, rfl⟩

/-- A step carries out the line it fetches. -/
theorem step_of_fetch_eq_some {s : State} {l : Line} {rest : List Line} (h : s.fetch = some (l, rest)) :
    step s = runLine l (s.withScript rest) := by
  rw [step, State.stepOnce, h]

end Sys2Proof.Machine

namespace Sys2Proof.Proofs

open Machine

/-- Settles O31: an operation holds or has its effect (log 4), and a step finds no line and holds (log 14), or carries
out the line it fetches. -/
theorem noStepStops : Obligations.NoStepStops := by
  refine ⟨exists_exec_eq_next, fun s => ?_⟩
  cases hf : s.fetch with
  | none => exact ⟨s, step_of_fetch_eq_none hf⟩
  | some p =>
    obtain ⟨l, rest⟩ := p
    rw [step_of_fetch_eq_some hf]
    exact exists_runLine_eq_next l (s.withScript rest)

end Sys2Proof.Proofs
end

section
/-! SUPPORT. RESET (R240): what it answers, the same in every state. -/

namespace Sys2Proof.Machine

theorem exec_reset (s : State) : exec .reset s = .next ((s.withDec Dec.reset).withEnc Enc.reset) :=
  exec_of_opEnabled rfl

/-- A state whose DEC has its reset values is Idle (R37, R241). -/
theorem State.bridge_of_dec_eq_reset {s : State} (h : s.dec = Dec.reset) : s.bridge = .idle :=
  s.bridge_eq_idle_iff.mpr (by rw [h]; exact ⟨rfl, rfl, rfl⟩)

end Sys2Proof.Machine

namespace Sys2Proof.Proofs

open Machine

/-- Settles O1: RESET is enabled in every state and writes the reset values of both agents, which the reset state
already has. -/
theorem resetSetsEveryElementSilently : Obligations.ResetSetsEveryElementSilently :=
  ⟨exec_reset, exec_reset State.reset⟩

/-- Settles O2: the views named are those of the reset values, which hold no message, no frame and no literal. -/
theorem afterResetBothAgentsIdle : Obligations.AfterResetBothAgentsIdle := fun s =>
  ⟨_, exec_reset s, State.bridge_of_dec_eq_reset rfl, rfl, rfl, rfl, rfl, rfl, rfl, rfl, rfl, rfl⟩

end Sys2Proof.Proofs
end

section
/-! SUPPORT. A terminator in the loop of Decode (R108): it closes an open escape, and otherwise ends the frame
(R109, R244). -/

namespace Sys2Proof.Machine

theorem decodeTurn_term_of_norm (frames : List (List Byte)) (cur : List Byte) :
    decodeTurn (frames, cur, .norm) Config.TERM = (frames ++ [cur], [], .norm) := rfl

/-- After a terminator no escape is open: it was the literal of one, or it ended the frame. -/
theorem exists_decodeTurn_term_eq (acc : DecodeAcc) :
    ∃ frames cur, decodeTurn acc Config.TERM = (frames, cur, .norm) := by
  obtain ⟨frames, cur, m⟩ := acc
  cases m with
  | norm => exact ⟨_, _, decodeTurn_term_of_norm frames cur⟩
  | escd => exact ⟨frames, cur ++ [Config.TERM], rfl⟩

/-- Two terminators in a row leave no partial frame: after the first no escape is open, so the second ends the frame. -/
theorem exists_decodeTurn_term_term_eq (acc : DecodeAcc) :
    ∃ frames, decodeTurn (decodeTurn acc Config.TERM) Config.TERM = (frames, [], .norm) := by
  obtain ⟨frames, cur, hfirst⟩ := exists_decodeTurn_term_eq acc
  exact ⟨frames ++ [cur], by rw [hfirst, decodeTurn_term_of_norm]⟩

end Sys2Proof.Machine

namespace Sys2Proof.Proofs

open Machine

/-- Settles O53: whatever Decode holds after the stream, the two bytes are two terminators in a row. -/
theorem twoEmptyPayloadsRealign : Obligations.TwoEmptyPayloadsRealign := by
  intro bytes
  rw [refDecode, List.foldl_append]
  exact exists_decodeTurn_term_term_eq (refDecode bytes)

end Sys2Proof.Proofs
end

section
/-! SUPPORT. Reading a word of the model's numbering (log 10): the tag is what stands above bit 8. -/

namespace Sys2Proof

/-- A word put together from a tag and a low part is read by that tag and that low part. -/
theorem symbolOfWord_append (tag : BitVec 7) (low : Sym9) :
    symbolOfWord (tag ++ low) =
      if tag = 0#7 then .ok (.dkey low)
      else if tag = 1#7 then .ok (.tin low)
      else if tag = 2#7 then actionOfNumber low
      else .error (.noSuchFormat tag) := by
  have htag : (tag ++ low).extractLsb' 9 7 = tag := BitVec.extractLsb'_append_eq_left
  have hlow : (tag ++ low).extractLsb' 0 9 = low := BitVec.extractLsb'_append_eq_right
  simp only [symbolOfWord, htag, hlow]

end Sys2Proof

namespace Sys2Proof.Proofs

/-- Settles O23: each format has its own tag, and the four action numbers are read by `actionOfNumber`. -/
theorem symbolWordsReadBack : Obligations.SymbolWordsReadBack := by
  intro y
  cases y with
  | dkey k => exact symbolOfWord_append 0#7 k
  | tin y => exact symbolOfWord_append 1#7 y
  | close => exact symbolOfWord_append 2#7 0#9
  | take => exact symbolOfWord_append 2#7 1#9
  | lit => exact symbolOfWord_append 2#7 2#9
  | reset => exact symbolOfWord_append 2#7 3#9

end Sys2Proof.Proofs
end
